-- ==== Sys2Proof/Word.lean ====
section
/-! DEFINITION. The word types: bytes, 16-bit values and the fixed-length frames (00_scope.md R6, R8; 20_memory.md R30 to R32). -/

namespace Sys2Proof

/-- A byte: 8 bits, unsigned, 0 to 255 (R8). No byte is ever a signed character. -/
abbrev Byte := BitVec 8

/-- A 16-bit value, unsigned, 0 to 65535 (R8). -/
abbrev Half := BitVec 16

/-- The 12 payload bytes carried on the request bus and in a command frame (R30(a), R54). -/
abbrev Payload := Vector Byte 12

/-- A command frame `F[0..19]`, host to device (R31, R45). -/
abbrev CmdFrame := Vector Byte 19

/-- A response frame `F[0..10]`, device to host (R32, R47). -/
abbrev RspFrame := Vector Byte 10

end Sys2Proof
end

