-- ==== Sys2Proof/Config.lean ====
section
/-! DEFINITION. The fixed parameters of 00_scope.md R6 and R7, and the free values of the points the spec leaves open. -/

namespace Sys2Proof.Config

/-- `CMD_FRAME_LEN` (R6). -/
abbrev cmdFrameLen : Nat := 19
/-- `RESP_FRAME_LEN` (R6). -/
abbrev respFrameLen : Nat := 10
/-- `PAYLOAD_MAX` (R6). -/
abbrev payloadMax : Nat := 12
/-- `RESP_REMAINDER_LEN` (R6): the bytes read after the start marker. -/
abbrev respRemainderLen : Nat := 9
/-- `START` (R6), the start marker of both directions. The literals are unaudited (U14): UNVERIFIED, log entry 18. -/
abbrev start : Byte := 0xAA
/-- `CMD_SUBTYPE` (R6). -/
abbrev cmdSubtype : Byte := 0xB4
/-- `RESERVED` (R6): command-frame bytes 15 and 16. -/
abbrev reserved : Byte := 0xFF
/-- `END` (R6), the end marker of both directions. -/
abbrev endMarker : Byte := 0xAB
/-- `SUBTYPE_MEASUREMENT` (R6). -/
abbrev subtypeMeasurement : Byte := 0xC0

/-- Command code of set-mode (30_encoding.md R46). -/
abbrev codeMode : Byte := 0x02
/-- Command code of query-data (R46). -/
abbrev codeQueryData : Byte := 0x04
/-- Command code of set-device-id (R46). -/
abbrev codeDeviceId : Byte := 0x05
/-- Command code of set-sleep (R46). -/
abbrev codeSleep : Byte := 0x06
/-- Command code of firmware-query (R46). -/
abbrev codeFirmware : Byte := 0x07
/-- Command code of set-working-period (R46). -/
abbrev codeWorkingPeriod : Byte := 0x08

/-- `PLEN_W` (R7, D3): the width of the payload-length field. The spec's default is taken: DESIGN CHOICE, log entry 6. -/
abbrev plenW : Nat := 8

/-- FREE VALUE (U4, log entry 8): how many of the items left in the receive stream the transport has consumed
around its `n`-th error. No body: nothing can be proved of it. -/
opaque errorDraw : Nat → Nat

/-- FREE VALUE (R29, U6, log entry 7): what `buf` holds after the `n`-th draw, a reset at run time. No body. -/
opaque bufAfterReset : Nat → RspFrame

/-- The two typed parsers a caller can pass a frame back to (10_state.md R24, 42_decode.md R92 and R95). -/
inductive Parser where
  | measurement
  | firmware
deriving DecidableEq, Repr, Inhabited

/-- What the caller, the transport and reset are free to do in one step (20_memory.md R40; 60_exceptions.md R113;
70_reset_and_hazards.md R120): `Machine.EnvMove` without the response word, whose ten bytes can arrive one by one, and
with a request as its operand fields (30_encoding.md R51) instead of a word. -/
inductive EnvChoice where
  | quiet
  | request (op : BitVec 2) (cmd len : Byte) (payload : Payload) (frame : RspFrame)
  | passBack (p : Parser)
  | byte (b : Byte)
  | error
  | errorNow
  | flush
  | reset
deriving DecidableEq, Repr, Inhabited

/-- FREE VALUE (R40, R113, log entry 9): the environment's `n`-th free choice. No body: a claim about a state whose
environment is free holds for every sequence of choices, endless ones included. -/
opaque envChoice : Nat → EnvChoice

end Sys2Proof.Config
end

