-- ==== Sys2Proof/Syntax.lean ====
section
/-! DEFINITION. The instructions: one constructor per row of spec/opcode_table.json, the request operations of 30_encoding.md R51, and the words they are written in. -/

namespace Sys2Proof

/-- The rows of spec/opcode_table.json (30_encoding.md R59): four operations, six logical commands (pseudo-operations),
one response row. -/
inductive Instr where
  /-- ENCODE (40_encoder.md R62): `cmd`, `len`, and the 12-byte payload bus of R54. -/
  | encode (cmd : Byte) (len : Nat) (payload : Payload)
  /-- READ_FRAME (41_resync.md R75). -/
  | readFrame
  /-- DECODE_MEASUREMENT (42_decode.md R92). -/
  | decodeMeasurement (frame : RspFrame)
  /-- DECODE_FIRMWARE (42_decode.md R95). -/
  | decodeFirmware (frame : RspFrame)
  /-- SET_MODE `m` (R63). -/
  | setMode (m : Byte)
  /-- QUERY_DATA (R64). -/
  | queryData
  /-- SET_DEVICE_ID `id` (R65). -/
  | setDeviceId (id : Half)
  /-- SET_SLEEP `s` (R66), `s` in 0 and 1: `WellFormed` checks it. -/
  | setSleep (s : Byte)
  /-- QUERY_FIRMWARE (R67). -/
  | queryFirmware
  /-- SET_WORKING_PERIOD `t` (R68). -/
  | setWorkingPeriod (t : Byte)
  /-- MEASUREMENT_RESPONSE (R48, R50): the device's measurement response with these fields and reserved bytes
  `F[6]` and `F[7]`; its checksum and markers follow from the row. -/
  | measurementResponse (pm25 : Half) (pm10 : Half) (res6 : Byte) (res7 : Byte)
deriving DecidableEq, Repr

/-- A request as `pending` holds it: its operation and its operands (10_state.md R23, 30_encoding.md R51). -/
inductive Request where
  | encode (cmd : Byte) (len : Nat) (payload : Payload)
  | readFrame
  | decodeMeasurement (frame : RspFrame)
  | decodeFirmware (frame : RspFrame)
deriving DecidableEq, Repr

/-- The four operations that the 2-bit `op` selects (R51). -/
inductive Op where
  | encode | readFrame | decodeMeasurement | decodeFirmware
deriving DecidableEq, Repr

/-- The three formats of the opcode table (R59): the request's `op`, the command byte `F[2]` of a logical command,
the subtype byte `F[1]` of a response frame. -/
inductive Format where
  | operation | logical | response
deriving DecidableEq, Repr

/-- A word as it stands on the request port (operation, logical) or is sent by the device (response). -/
structure Word where
  format : Format
  bytes : List Byte
deriving DecidableEq, Repr

end Sys2Proof
end

