-- ==== Sys2Proof/WellFormed.lean ====
section
/-! DEFINITION. Which instructions are well formed: the operand ranges of 30_encoding.md R51 and R58. -/

namespace Sys2Proof

/-- The operand ranges the encodings admit: the payload length fits `PLEN_W` bits (R51, R54), and SET_SLEEP takes 0
or 1 only (R58, D19). Every other operand's type is its range. A DECODE_MEASUREMENT of another subtype is well
formed: the word can be offered, and the model refuses it (R93). -/
def Instr.wellFormed : Instr → Bool
  | .encode _ len _ => decide (len < 2 ^ Config.plenW)
  | .readFrame => true
  | .decodeMeasurement _ => true
  | .decodeFirmware _ => true
  | .setMode _ => true
  | .queryData => true
  | .setDeviceId _ => true
  | .setSleep s => decide (s.toNat ≤ 1)
  | .queryFirmware => true
  | .setWorkingPeriod _ => true
  | .measurementResponse _ _ _ _ => true

end Sys2Proof
end

