-- ==== Sys2Proof/Decode.lean ====
section
/-! DEFINITION. The decoder of request and response words, total on any bytes and rejecting by name, and after it the encoder; both from 30_encoding.md R48, R51, R54 and R58. -/

namespace Sys2Proof

/-- Little-endian assembly `le16(lo, hi)` (00_scope.md R10): the first byte is bits 7 to 0. -/
def le16 (lo hi : Byte) : Half := lo.setWidth 16 ||| (hi.setWidth 16 <<< 8)

/-- Bits `[7:0]` of a 16-bit value (R8, R33). -/
def loByte (v : Half) : Byte := v.extractLsb' 0 8

/-- Bits `[15:8]` of a 16-bit value (R8, R33). -/
def hiByte (v : Half) : Byte := v.extractLsb' 8 8

/-- How many bytes a word of the format has. The packing is the model's: DESIGN CHOICE, log entries 2, 3 and 4. -/
def Format.wordLength : Format → Nat
  | .operation => 25
  | .logical => 3
  | .response => 7

/-- Why a word is no instruction. Each is a rejection by name. -/
inductive DecodeError where
  /-- The word has not the length of its format (the model's packing, log entries 2 to 4). -/
  | wrongLength (n : Nat)
  /-- A logical command with a code outside the six of R46; R55(b): it can be sent as an ENCODE. -/
  | unnamedCommand (code : Byte)
  /-- A logical command's operand is outside the range R58 gives it. -/
  | operandOutOfRange (code lo hi : Byte)
  /-- A response word with a subtype other than `0xC0` (R55(e): unnamed). -/
  | unnamedSubtype (subtype : Byte)
  /-- A response word stands at the request port, where only requests are offered (R51). -/
  | notARequest
deriving DecidableEq, Repr

/-- The 2-bit code of an operation (R51). -/
def Op.code : Op → BitVec 2
  | .encode => 0b00
  | .readFrame => 0b01
  | .decodeMeasurement => 0b10
  | .decodeFirmware => 0b11

/-- The operation `op` selects: every 2-bit value selects one (R51, R55(a)). -/
def Op.ofCode (op : BitVec 2) : Op :=
  if op = 0b00 then .encode
  else if op = 0b01 then .readFrame
  else if op = 0b10 then .decodeMeasurement
  else .decodeFirmware

/-- Byte `i` of a word, counted from 0. -/
def byteAt (bs : List Byte) (i : Nat) : Byte := bs.getD i 0

/-- The request word's `payload[0..12]`, bytes 3 to 14 (log entry 2). -/
def wordPayload (bs : List Byte) : Payload := Vector.ofFn fun i => byteAt bs (3 + i)

/-- The request word's `frame[0..10]`, bytes 15 to 24 (log entry 2). -/
def wordFrame (bs : List Byte) : RspFrame := Vector.ofFn fun i => byteAt bs (15 + i)

/-- A request word: `op` is bits `[1:0]` of byte 0, then `cmd`, `len`, `payload`, `frame`. An operand field not
listed for the selected `op` is ignored (R51). Bits `[7:2]` of byte 0 are no field and are ignored (log entry 2). -/
def decodeOperation (bs : List Byte) : Except DecodeError Instr :=
  if bs.length = Format.operation.wordLength then
    match Op.ofCode ((byteAt bs 0).extractLsb' 0 2) with
    | .encode => .ok (.encode (byteAt bs 1) (byteAt bs 2).toNat (wordPayload bs))
    | .readFrame => .ok .readFrame
    | .decodeMeasurement => .ok (.decodeMeasurement (wordFrame bs))
    | .decodeFirmware => .ok (.decodeFirmware (wordFrame bs))
  else .error (.wrongLength bs.length)

/-- A logical command from its code (R46) and its 16-bit operand field, with the operand ranges of R58. -/
def decodeCommand (code lo hi : Byte) : Except DecodeError Instr :=
  if code = Config.codeMode then
    if hi = 0 then .ok (.setMode lo) else .error (.operandOutOfRange code lo hi)
  else if code = Config.codeQueryData then
    if hi = 0 ∧ lo = 0 then .ok .queryData else .error (.operandOutOfRange code lo hi)
  else if code = Config.codeDeviceId then
    .ok (.setDeviceId (le16 lo hi))
  else if code = Config.codeSleep then
    if hi = 0 ∧ lo.toNat ≤ 1 then .ok (.setSleep lo) else .error (.operandOutOfRange code lo hi)
  else if code = Config.codeFirmware then
    if hi = 0 ∧ lo = 0 then .ok .queryFirmware else .error (.operandOutOfRange code lo hi)
  else if code = Config.codeWorkingPeriod then
    if hi = 0 then .ok (.setWorkingPeriod lo) else .error (.operandOutOfRange code lo hi)
  else .error (.unnamedCommand code)

/-- A logical command's word: the command code, which the table matches as `F[2]` (R59), then the operand, low byte
first (log entry 3). -/
def decodeLogical (bs : List Byte) : Except DecodeError Instr :=
  match bs with
  | [code, lo, hi] => decodeCommand code lo hi
  | other => .error (.wrongLength other.length)

/-- A response word: the subtype, which the table matches as `F[1]` (R59), then the six data bytes `F[2..8]` in the
measurement layout of R48 (log entry 4). -/
def decodeResponse (bs : List Byte) : Except DecodeError Instr :=
  match bs with
  | [subtype, d2, d3, d4, d5, d6, d7] =>
    if subtype = Config.subtypeMeasurement then
      .ok (.measurementResponse (le16 d2 d3) (le16 d4 d5) d6 d7)
    else .error (.unnamedSubtype subtype)
  | other => .error (.wrongLength other.length)

/-- The decoder, total on every word of every format. -/
def decode (w : Word) : Except DecodeError Instr :=
  match w.format with
  | .operation => decodeOperation w.bytes
  | .logical => decodeLogical w.bytes
  | .response => decodeResponse w.bytes

/-- The decoder of the request port: the caller offers requests, never a response frame (R51, R113). -/
def decodeRequest (w : Word) : Except DecodeError Instr :=
  match w.format with
  | .operation => decodeOperation w.bytes
  | .logical => decodeLogical w.bytes
  | .response => .error .notARequest

/-- A request word from its fields (R51): byte 0 holds `op`, and every field not listed for the operation is zero. -/
def operationWord (op : Op) (cmd len : Byte) (payload : Payload) (frame : RspFrame) : Word :=
  ⟨.operation, op.code.setWidth 8 :: cmd :: len :: (payload.toList ++ frame.toList)⟩

/-- The encoder: the word of a well-formed instruction, from the same encodings (R51, R54, R58, R48). -/
def encode : Instr → Word
  | .encode cmd len payload => operationWord .encode cmd (BitVec.ofNat 8 len) payload (Vector.replicate 10 0)
  | .readFrame => operationWord .readFrame 0 0 (Vector.replicate 12 0) (Vector.replicate 10 0)
  | .decodeMeasurement frame => operationWord .decodeMeasurement 0 0 (Vector.replicate 12 0) frame
  | .decodeFirmware frame => operationWord .decodeFirmware 0 0 (Vector.replicate 12 0) frame
  | .setMode m => ⟨.logical, [Config.codeMode, m, 0]⟩
  | .queryData => ⟨.logical, [Config.codeQueryData, 0, 0]⟩
  | .setDeviceId id => ⟨.logical, [Config.codeDeviceId, loByte id, hiByte id]⟩
  | .setSleep s => ⟨.logical, [Config.codeSleep, s, 0]⟩
  | .queryFirmware => ⟨.logical, [Config.codeFirmware, 0, 0]⟩
  | .setWorkingPeriod t => ⟨.logical, [Config.codeWorkingPeriod, t, 0]⟩
  | .measurementResponse pm25 pm10 res6 res7 =>
    ⟨.response, [Config.subtypeMeasurement, loByte pm25, hiByte pm25, loByte pm10, hiByte pm10, res6, res7]⟩

/-- Which of the three formats a word of spec/opcode_table.json is read in. The table gives its rows in three
formats (R59) and no bit says which. Fewer than 8 bits can only be the 2-bit `op`. Otherwise the more specific row
wins: a byte that some row matches with mask 0xFF is that row's, any other byte is matched by an operation row's
mask 0b11. So 0x02 is SET_MODE's, not DECODE_MEASUREMENT's: DESIGN CHOICE, log entry 5. -/
def tableFormat (nbits w : Nat) : Format :=
  if nbits < 8 then .operation
  else if w % 256 = 0xC0 then .response
  else if w % 256 = 2 ∨ (4 ≤ w % 256 ∧ w % 256 ≤ 8) then .logical
  else .operation

/-- The word whose low `nbits` bits are `w`, its first byte the least significant, every later bit zero. -/
def tableWord (nbits w : Nat) : Word :=
  let f := tableFormat nbits w
  ⟨f, (List.range f.wordLength).map fun i => BitVec.ofNat 8 ((w % 2 ^ nbits) / 2 ^ (8 * i))⟩

/-- The instruction the decoder reads from the table's word. -/
def decodeTableWord (nbits w : Nat) : Option Instr :=
  match decode (tableWord nbits w) with
  | .ok i => some i
  | .error _ => none

end Sys2Proof
end

