-- ==== Sys2Proof/Machine/State.lean ====
section
/-! DEFINITION. The machine's state: the block's registers, the response it drives, and the caller's and the transport's side of its two ports. Its fault and refusal reasons, and the state after reset. -/

namespace Sys2Proof.Machine

/-- The resynchroniser's phase register (10_state.md R20). The encoding `0b11` is left out of the type (U7). -/
inductive Phase where
  /-- No READ_FRAME outstanding. -/
  | idle
  /-- Discarding bytes until the start marker. -/
  | hunt
  /-- Reading the nine bytes after the start marker. -/
  | collect
deriving DecidableEq, Repr

/-- The status codes of a response (60_exceptions.md R100). -/
inductive Status where
  | ok | invalidArgument | checksumMismatch | transportError
deriving DecidableEq, Repr

/-- The result fields of a response (30_encoding.md R52): only the fields meaningful in it; a field that is not
meaningful is not there (U5). -/
inductive Result where
  /-- ENCODE with INVALID_ARGUMENT, READ_FRAME with TRANSPORT_ERROR: no field. -/
  | none
  /-- ENCODE with OK: `cmd_frame[0..19]`. -/
  | cmdFrame (frame : CmdFrame)
  /-- READ_FRAME with OK: `rsp_frame[0..10]`. -/
  | rspFrame (frame : RspFrame)
  /-- DECODE_MEASUREMENT: `pm25_raw`, `pm10_raw`, `csum_ok`. -/
  | measurement (pm25Raw : Half) (pm10Raw : Half) (csumOk : Bool)
  /-- DECODE_FIRMWARE: `year`, `month`, `day`, `dev_id`, `csum_ok`. -/
  | firmware (year : Byte) (month : Byte) (day : Byte) (devId : Half) (csumOk : Bool)
deriving DecidableEq, Repr

/-- A response: the status code and the result fields of its operation (10_state.md R24). -/
structure Response where
  status : Status
  result : Result
deriving DecidableEq, Repr

/-- What the transport holds for `RxTake()`, in order: a byte, or an error indication (20_memory.md R37, R40). -/
inductive RxItem where
  | byte (b : Byte)
  | err
deriving DecidableEq, Repr

/-- A move of the block's environment, the caller, the transport, the device or reset: at most one in a step
(20_memory.md R40, 60_exceptions.md R113 and R114, log entry 9). -/
inductive EnvMove where
  /-- The environment does nothing in this step. -/
  | quiet
  /-- The caller issues a request, whose word joins the request port (R113, R114(a), log entry 24). -/
  | offer (w : Word)
  /-- The caller issues a DECODE_* of the last frame it was given (10_state.md R24, log entry 24). -/
  | passBack (p : Config.Parser)
  /-- The transport receives a byte (R38). -/
  | byte (b : Byte)
  /-- The transport will report an error (R40) where the stream now ends. That it stands behind every byte held is a
  DESIGN CHOICE, log entry 23; `errorNow` is the other place. -/
  | error
  /-- The transport reports an error at the very next `RxTake()` (R40), before the bytes it holds (log entry 23). -/
  | errorNow
  /-- The device sends a whole response frame, given by its word (log entry 4). -/
  | frame (bytes : List Byte)
  /-- The transport's `flush_input()` (R43, R121), a call of the Session, never of the block. -/
  | flush
  /-- Reset is asserted (70_reset_and_hazards.md R120). -/
  | reset
deriving DecidableEq, Repr

/-- What the environment does when its listed moves are used up (20_memory.md R40, log entry 9). -/
inductive EnvTail where
  /-- It makes the moves of `loop` over and over: endless noise, or with no move in `loop` nothing, ever. -/
  | repeating (loop : List EnvMove)
  /-- It is free from its `n`-th choice on: each further move is the free value `Config.envChoice`. -/
  | free (n : Nat)
deriving DecidableEq, Repr

/-- The environment's moves to come, without end: those listed, the next first, and then the tail's. -/
structure Environment where
  moves : List EnvMove
  tail : EnvTail
deriving DecidableEq, Repr

/-- Why the machine stops with a fault. -/
inductive Fault where
  /-- Raised by the block's own step in a sequencer state that R20 to R23 exclude (`phase`, `count` and `pending` do
  not fit together). U7: a realisation is never in such a state, and one seen there is at fault. Safe: it stops
  where the spec gives no step, and no run from reset reaches it (log entry 12). -/
  | illegalSequencer
deriving DecidableEq, Repr

/-- Why the machine gives no meaning. -/
inductive Refusal where
  /-- Raised by `exec`'s arm of an instruction without a meaning. Safe. No arm raises it. -/
  | notModelled (mnemonic : String)
  /-- Raised by a fetch of a word that is no instruction. Safe: the caller and the device of the spec form none. -/
  | undecodable (why : DecodeError)
  /-- Raised by DECODE_MEASUREMENT on a frame with `F[1]` other than `0xC0` (42_decode.md R93, R105, U3). Safe: the
  spec says that a model refuses it. -/
  | measurementSubtype
  /-- Raised by SET_SLEEP with an operand other than 0 and 1 (40_encoder.md R66, D19): refused by the syntax. Safe. -/
  | sleepOperand
deriving DecidableEq, Repr

/-- The whole state. -/
structure State where
  /-- The resynchroniser's phase (R20). -/
  phase : Phase
  /-- The resynchroniser's byte counter, 0 to 10; 11 to 15 are left out of the type (R21, U7). -/
  count : Fin 11
  /-- The resynchroniser's frame buffer (R22). -/
  buf : RspFrame
  /-- The outstanding request (R23). -/
  pending : Option Request
  /-- The response driven by the step just made, `none` where it drove none (R24, R29; log entry 13). -/
  response : Option Response
  /-- The request port: the requests offered and not yet accepted, the oldest first (R23, R42). The caller's moves add
  to it (R113, R114). -/
  port : List Word
  /-- The receive stream: what the transport holds, the oldest first (R30(d), R38). -/
  rx : List RxItem
  /-- The responses delivered to the caller, the oldest first (R104, R115). -/
  delivered : List Response
  /-- The MODEL's own: the environment's moves to come (log entry 9). -/
  env : Environment
  /-- The MODEL's own: how many free values have been drawn (log entry 8). -/
  draws : Nat
deriving DecidableEq, Repr

/-- The machine right after reset (10_state.md R29). `buf` is unspecified there: ten zero bytes are a DESIGN CHOICE
(log entry 7). The ports start empty (log entries 9, 13 and 17), no free value is drawn yet (log entry 8), and the environment is free
(R40, log entry 9). -/
def State.reset : State where
  phase := .idle
  count := 0
  buf := Vector.replicate 10 0
  pending := none
  response := none
  port := []
  rx := []
  delivered := []
  env := ⟨[], .free 0⟩
  draws := 0

end Sys2Proof.Machine
end

