-- ==== Sys2Proof/Machine/Flags.lean ====
section
/-! DEFINITION. Checksums and the validity flag (40_encoder.md R60, 42_decode.md R90 and R91), status codes (60_exceptions.md R100). -/

namespace Sys2Proof.Machine

/-- `Σ s`: the sum of the bytes as a natural number, with no reduction (00_scope.md R9). -/
def sumBytes (bs : List Byte) : Nat := (bs.map BitVec.toNat).sum

/-- `cmd_checksum(cmd, q) = (Σ q[0..12] + cmd − 2) mod 256`, Euclidean (40_encoder.md R60, 00_scope.md R8). -/
def cmdChecksum (cmd : Byte) (q : Payload) : Byte :=
  BitVec.ofInt 8 (((sumBytes q.toList + cmd.toNat : Nat) : Int) - 2)

/-- `resp_checksum(F) = Σ F[2..8] mod 256` (42_decode.md R90). -/
def respChecksum (F : RspFrame) : Byte :=
  BitVec.ofNat 8 (sumBytes [F[2], F[3], F[4], F[5], F[6], F[7]])

/-- `valid(F)`: the checksum matches and the trailer is the end marker (42_decode.md R91). -/
def validFrame (F : RspFrame) : Bool :=
  respChecksum F == F[8] && F[9] == Config.endMarker

/-- The status of a DECODE_* response: `OK` when valid, `CHECKSUM_MISMATCH` otherwise (R91, R100). -/
def decodeStatus (F : RspFrame) : Status :=
  if validFrame F then .ok else .checksumMismatch

/-- The 2-bit status code (60_exceptions.md R100). -/
def Status.code : Status → BitVec 2
  | .ok => 0b00
  | .invalidArgument => 0b01
  | .checksumMismatch => 0b10
  | .transportError => 0b11

/-- The 2-bit encoding of `phase` (10_state.md R20). -/
def Phase.code : Phase → BitVec 2
  | .idle => 0b00
  | .hunt => 0b01
  | .collect => 0b10

/-- The `valid` flag of a response, where it has one (10_state.md R27). -/
def Result.csumOk : Result → Option Bool
  | .none => .none
  | .cmdFrame _ => .none
  | .rspFrame _ => .none
  | .measurement _ _ v => some v
  | .firmware _ _ _ _ v => some v

end Sys2Proof.Machine
end

