-- ==== Sys2Proof/Machine/Operands.lean ====
section
/-! DEFINITION. Operand forms: the payload operand and its padding, the command frame's layout, the fields of the response frames, the expansions of the logical commands, the concentration of a raw count. -/

namespace Sys2Proof.Machine

/-- The payload operand `p` of a request (30_encoding.md R54): `payload[0..len]` for `len ≤ 12`, bytes at index `len`
and above ignored. For a longer `len` only the length matters; the bytes beyond the bus are zeros that no rule reads
(log entry 20). -/
def payloadOperand (len : Nat) (payload : Payload) : List Byte :=
  (payload.toList ++ List.replicate (len - Config.payloadMax) 0).take len

/-- `q[0..12]`: the payload padded with zeros on the right (30_encoding.md R53). -/
def padPayload (p : List Byte) : Payload := Vector.ofFn fun i => p.getD i 0

/-- The 12-byte payload bus of a request that carries `p` (R54). -/
def payloadBus (p : List Byte) : Payload := padPayload p

/-- The command frame of `cmd` and the padded payload `q` (30_encoding.md R45, 40_encoder.md R62). -/
def cmdFrameOf (cmd : Byte) (q : Payload) : CmdFrame :=
  #v[Config.start, Config.cmdSubtype, cmd,
    q[0], q[1], q[2], q[3], q[4], q[5], q[6], q[7], q[8], q[9], q[10], q[11],
    Config.reserved, Config.reserved, cmdChecksum cmd q, Config.endMarker]

/-- The error kind of ENCODE, with the offending length (R11, 60_exceptions.md R101). -/
inductive EncodeError where
  | invalidArgument (len : Nat)
deriving DecidableEq, Repr

/-- ENCODE's computation on a payload of any length (40_encoder.md R62): an error exactly when it is over 12 bytes. -/
def encodeCommand (cmd : Byte) (p : List Byte) : Except EncodeError CmdFrame :=
  if p.length > Config.payloadMax then .error (.invalidArgument p.length)
  else .ok (cmdFrameOf cmd (padPayload p))

/-- `pm25_raw` of a measurement frame (30_encoding.md R48). -/
def pm25Raw (F : RspFrame) : Half := le16 F[2] F[3]

/-- `pm10_raw` of a measurement frame (R48). -/
def pm10Raw (F : RspFrame) : Half := le16 F[4] F[5]

/-- `dev_id` of a firmware frame (30_encoding.md R49). -/
def devId (F : RspFrame) : Half := le16 F[6] F[7]

/-- The payload SET_MODE expands to (30_encoding.md R58, 40_encoder.md R63). -/
def modePayload (m : Byte) : List Byte := [1, m]

/-- The payload SET_DEVICE_ID expands to: ten zero bytes, the ID's low byte, its high byte (R58, R65). -/
def deviceIdPayload (id : Half) : List Byte := List.replicate 10 0 ++ [loByte id, hiByte id]

/-- The payload SET_SLEEP expands to (R58, R66). -/
def sleepPayload (s : Byte) : List Byte := [1, s]

/-- The payload SET_WORKING_PERIOD expands to (R58, R68). -/
def workingPeriodPayload (t : Byte) : List Byte := [1, t]

/-- The request an `ENCODE cmd, p` is on the port (R51, R54). -/
def encodeRequest (cmd : Byte) (p : List Byte) : Request := .encode cmd p.length (payloadBus p)

/-- The measurement response with these fields, as the opcode table's response row gives it (R47, R48): markers and
subtype constant, the checksum over `F[2..8]`. -/
def measurementFrame (pm25 pm10 : Half) (res6 res7 : Byte) : RspFrame :=
  #v[Config.start, Config.subtypeMeasurement, loByte pm25, hiByte pm25, loByte pm10, hiByte pm10, res6, res7,
    BitVec.ofNat 8 (sumBytes [loByte pm25, hiByte pm25, loByte pm10, hiByte pm10, res6, res7]), Config.endMarker]

/-- The concentration of a raw count in µg/m³, the exact rational `raw / 10` (42_decode.md R94). -/
def concentration (raw : Half) : Rat := (raw.toNat : Rat) / 10

/-- The concentration in decimal: the digits before the point, and the one after it (R94). -/
def concentrationDecimal (raw : Half) : Nat × Nat := (raw.toNat / 10, raw.toNat % 10)

end Sys2Proof.Machine
end

