-- ==== Sys2Proof/Machine/Ops.lean ====
section
/-! DEFINITION. The named operations every meaning is made of: accepting and answering a request, taking an item of the receive stream, entering an error, reset. -/

namespace Sys2Proof.Machine

/-- The three outcomes of a step, at this machine's types. -/
abbrev StepOutcome := Host.Outcome State Fault Refusal

/-- Accept a request: only when `pending` is empty, which then holds it (10_state.md R23). -/
def accept (r : Request) (s : State) : Option State :=
  match s.pending with
  | none => some { s with pending := some r }
  | some _ => none

/-- `respond(status)` (60_exceptions.md R104): deliver the status and the driven fields to the caller, and clear
`pending`, in one step. -/
def respond (st : Status) (res : Result) (s : State) : State :=
  { s with
    pending := none
    response := some ⟨st, res⟩
    delivered := s.delivered ++ [⟨st, res⟩] }

/-- What entering an error changes (60_exceptions.md R109): TRANSPORT_ERROR returns the resynchroniser to `IDLE`, the
others change nothing. Nothing is saved; there is no vector and no mode. -/
def errorEntry (st : Status) (s : State) : State :=
  match st with
  | .ok => s
  | .invalidArgument => s
  | .checksumMismatch => s
  | .transportError => { s with phase := .idle, count := 0 }

/-- `raise`: enter the error and answer the request with its status and the fields it still carries (R101 to R103). -/
def raise (st : Status) (res : Result) (s : State) : State := respond st res (errorEntry st s)

/-- Serve a request: accept it and go on, or leave it held (10_state.md R23: held by the port, not lost and not
answered with an error). -/
def serve (r : Request) (meaning : State → StepOutcome) (s : State) : StepOutcome :=
  match accept r s with
  | some s' => meaning s'
  | none => .next s

/-- What `RxTake()` gets from the transport (20_memory.md R37). -/
inductive RxAnswer where
  | nothing
  | byte (b : Byte)
  | err
deriving DecidableEq, Repr

/-- `RxTake()` (20_memory.md R37): a byte is removed from the stream; an empty stream leaves the take waiting. After
an error the stream is any suffix of what follows it (U4, log entry 8): a free value says how much is gone. -/
def rxTake (s : State) : RxAnswer × State :=
  match s.rx with
  | [] => (.nothing, s)
  | .byte b :: rest => (.byte b, { s with rx := rest })
  | .err :: rest =>
    (.err, { s with rx := rest.drop (Config.errorDraw s.draws), draws := s.draws + 1 })

/-- Items reach the end of the receive stream (20_memory.md R38, R39). -/
def arrive (items : List RxItem) (s : State) : State := { s with rx := s.rx ++ items }

/-- The transport reports an error at the next take, before the bytes it holds (20_memory.md R40, log entry 23). -/
def failNext (s : State) : State := { s with rx := .err :: s.rx }

/-- The caller issues a request: its word joins the end of the request port, where it is held until the block accepts
it (10_state.md R23, 60_exceptions.md R113 and R114). -/
def offerRequest (w : Word) (s : State) : State := { s with port := s.port ++ [w] }

/-- The frame of a READ_FRAME's result. -/
def returnedFrame (res : Result) : Option RspFrame :=
  match res with
  | .rspFrame F => some F
  | .none => Option.none
  | .cmdFrame _ => Option.none
  | .measurement _ _ _ => Option.none
  | .firmware _ _ _ _ _ => Option.none

/-- The last frame among the responses the caller took: the caller keeps it, the block does not (10_state.md R24). -/
def lastFrame (rs : List Response) : Option RspFrame := rs.reverse.findSome? fun r => returnedFrame r.result

/-- The caller passes the last frame it was given back as the operand of a DECODE_* (10_state.md R24). It dispatches on
`F[1]` before a DECODE_MEASUREMENT (60_exceptions.md R113, R127): of another subtype, or with no frame yet, it issues
nothing (log entry 24). -/
def passBack (p : Config.Parser) (s : State) : State :=
  match lastFrame s.delivered with
  | none => s
  | some F =>
    match p with
    | .measurement =>
      if F[1] = Config.subtypeMeasurement then offerRequest (encode (.decodeMeasurement F)) s else s
    | .firmware => offerRequest (encode (.decodeFirmware F)) s

/-- The transport's `flush_input()`: the bytes it holds are gone, nothing else changes (20_memory.md R43). -/
def flushInput (s : State) : State := { s with rx := s.rx.filter (· = .err) }

/-- The caller issues the request with these fields on its bus (30_encoding.md R51), any of the four with any operands,
except the refused DECODE_MEASUREMENT of R93, which it does not issue (60_exceptions.md R113). The packing of the word
is log entry 2's. -/
def requestMove (op : BitVec 2) (cmd len : Byte) (payload : Payload) (frame : RspFrame) : EnvMove :=
  if op = Op.decodeMeasurement.code ∧ frame[1] ≠ Config.subtypeMeasurement then .quiet
  else .offer ⟨.operation, op.setWidth 8 :: cmd :: len :: (payload.toList ++ frame.toList)⟩

/-- The environment's `n`-th free choice as a move (20_memory.md R40, 60_exceptions.md R113, log entry 9). -/
def freeMove (n : Nat) : EnvMove :=
  match Config.envChoice n with
  | .quiet => .quiet
  | .request op cmd len payload frame => requestMove op cmd len payload frame
  | .passBack p => .passBack p
  | .byte b => .byte b
  | .error => .error
  | .errorNow => .errorNow
  | .flush => .flush
  | .reset => .reset

/-- The environment's next move: the first listed one, else the tail's (20_memory.md R40, log entry 9). -/
def Environment.next (e : Environment) : EnvMove :=
  match e.moves with
  | m :: _ => m
  | [] =>
    match e.tail with
    | .repeating [] => .quiet
    | .repeating (m :: _) => m
    | .free n => freeMove n

/-- The environment after its next move; a repeating tail is unrolled once and stays. -/
def Environment.rest (e : Environment) : Environment :=
  match e.moves with
  | _ :: l => ⟨l, e.tail⟩
  | [] =>
    match e.tail with
    | .repeating [] => e
    | .repeating (_ :: l) => ⟨l, e.tail⟩
    | .free n => ⟨[], .free (n + 1)⟩

/-- An environment whose next move is `m`. -/
def Environment.withMove (m : EnvMove) (e : Environment) : Environment := ⟨m :: e.moves, e.tail⟩

/-- Reset (70_reset_and_hazards.md R120, R121): the block's state takes the values of R29, an outstanding request is
dropped with no response, the transport and its stream are left alone. `buf` is unspecified: a free value. -/
def blockReset (s : State) : State :=
  { s with
    phase := .idle
    count := 0
    buf := Config.bufAfterReset s.draws
    pending := none
    response := none
    draws := s.draws + 1 }

/-- A response is handed over once and is not kept (10_state.md R24): a step begins with none driven. -/
def beginStep (s : State) : State := { s with response := none }

/-- The sequencer states R20 to R23 allow: `IDLE` with nothing pending, `HUNT` and `COLLECT` with a READ_FRAME
pending, `count` 0 but for 1 to 9 in `COLLECT`. -/
def State.sequencerOk (s : State) : Bool :=
  match s.phase with
  | .idle => decide (s.pending = none) && decide (s.count = 0)
  | .hunt => decide (s.pending = some .readFrame) && decide (s.count = 0)
  | .collect => decide (s.pending = some .readFrame) && (decide (1 ≤ s.count.val) && decide (s.count.val ≤ 9))

end Sys2Proof.Machine
end

