-- ==== Sys2Proof/Machine/Encoder.lean ====
section
/-! DEFINITION. The Frame Encoder: ENCODE and the six logical commands (40_encoder.md). -/

namespace Sys2Proof.Machine

/-- ENCODE's answer to an accepted request (40_encoder.md R62): the frame, or INVALID_ARGUMENT and no frame (R101). -/
def answerEncode (cmd : Byte) (p : List Byte) (s : State) : StepOutcome :=
  match encodeCommand cmd p with
  | .ok frame => .next (respond .ok (.cmdFrame frame) s)
  | .error (.invalidArgument _) => .next (raise .invalidArgument .none s)

/-- `ENCODE cmd, p` as a logical command expands to it (30_encoding.md R58). -/
def serveCommand (cmd : Byte) (p : List Byte) (s : State) : StepOutcome :=
  serve (encodeRequest cmd p) (answerEncode cmd p) s

/-- ENCODE (40_encoder.md R62). -/
def execEncode (cmd : Byte) (len : Nat) (payload : Payload) (s : State) : StepOutcome :=
  serve (.encode cmd len payload) (answerEncode cmd (payloadOperand len payload)) s

/-- SET_MODE (40_encoder.md R63). -/
def execSetMode (m : Byte) (s : State) : StepOutcome :=
  serveCommand Config.codeMode (modePayload m) s

/-- QUERY_DATA (40_encoder.md R64). -/
def execQueryData (s : State) : StepOutcome :=
  serveCommand Config.codeQueryData [] s

/-- SET_DEVICE_ID (40_encoder.md R65). -/
def execSetDeviceId (id : Half) (s : State) : StepOutcome :=
  serveCommand Config.codeDeviceId (deviceIdPayload id) s

/-- SET_SLEEP (40_encoder.md R66): another operand than 0 and 1 is refused by the pseudo-operation's syntax. -/
def execSetSleep (v : Byte) (s : State) : StepOutcome :=
  if v.toNat ≤ 1 then serveCommand Config.codeSleep (sleepPayload v) s else .refused .sleepOperand

/-- QUERY_FIRMWARE (40_encoder.md R67). -/
def execQueryFirmware (s : State) : StepOutcome :=
  serveCommand Config.codeFirmware [] s

/-- SET_WORKING_PERIOD (40_encoder.md R68). -/
def execSetWorkingPeriod (t : Byte) (s : State) : StepOutcome :=
  serveCommand Config.codeWorkingPeriod (workingPeriodPayload t) s

end Sys2Proof.Machine
end

