-- ==== Sys2Proof/Machine/Environment.lean ====
section
/-! DEFINITION. The device's response frame as it reaches the transport (30_encoding.md R48 and R50, 20_memory.md R34 and R38). -/

namespace Sys2Proof.Machine

/-- MEASUREMENT_RESPONSE: the row is no request. The device sends this measurement response, and its ten bytes reach
the end of the receive stream in index order (20_memory.md R34, R38; 30_encoding.md R47, R48). The block does nothing.
That this is what the row does in the machine is a DESIGN CHOICE, log entry 4. -/
def execMeasurementResponse (pm25 pm10 : Half) (res6 res7 : Byte) (s : State) : StepOutcome :=
  .next (arrive ((measurementFrame pm25 pm10 res6 res7).toList.map .byte) s)

end Sys2Proof.Machine
end

