-- ==== Sys2Proof/Machine/Parsers.lean ====
section
/-! DEFINITION. The typed response parsers (42_decode.md). -/

namespace Sys2Proof.Machine

/-- Answer a DECODE_* request: `OK` for a valid frame, CHECKSUM_MISMATCH with the same fields otherwise (R91, R98,
60_exceptions.md R102). -/
def answerDecode (F : RspFrame) (fields : Result) (s : State) : State :=
  match decodeStatus F with
  | .ok => respond .ok fields s
  | st => raise st fields s

/-- DECODE_MEASUREMENT (42_decode.md R92): a frame of another subtype is refused before anything else (R93, R108(c)). -/
def execDecodeMeasurement (F : RspFrame) (s : State) : StepOutcome :=
  serve (.decodeMeasurement F)
    (fun s' =>
      if F[1] = Config.subtypeMeasurement then
        .next (answerDecode F (.measurement (pm25Raw F) (pm10Raw F) (validFrame F)) s')
      else .refused .measurementSubtype) s

/-- DECODE_FIRMWARE (42_decode.md R95): defined for every subtype (R96). -/
def execDecodeFirmware (F : RspFrame) (s : State) : StepOutcome :=
  serve (.decodeFirmware F)
    (fun s' => .next (answerDecode F (.firmware F[3] F[4] F[5] (devId F) (validFrame F)) s')) s

end Sys2Proof.Machine
end

