-- ==== Sys2Proof/Machine/Resync.lean ====
section
/-! DEFINITION. The resynchroniser: READ_FRAME's acceptance and its byte steps (41_resync.md). -/

namespace Sys2Proof.Machine

/-- READ_FRAME (41_resync.md R75): accepted, it begins to hunt; its byte steps are steps of their own. -/
def execReadFrame (s : State) : StepOutcome :=
  serve .readFrame (fun s' => .next { s' with phase := .hunt, count := 0 }) s

/-- The transport reported an error: the READ_FRAME ends with TRANSPORT_ERROR and no frame (41_resync.md R80). -/
def failRead (s : State) : State := raise .transportError .none s

/-- Completion, in the step that stored `buf[9]` (41_resync.md R79). `buf` is not cleared. -/
def completeRead (s : State) : State :=
  respond .ok (.rspFrame s.buf) { s with phase := .idle, count := 0 }

/-- A byte taken in `HUNT`: the start marker begins the frame (R77), any other byte is discarded (R76). -/
def huntByte (b : Byte) (s : State) : State :=
  if b = Config.start then
    { s with buf := s.buf.setIfInBounds 0 Config.start, count := 1, phase := .collect }
  else s

/-- A byte taken in `COLLECT` with `count = k` is stored at `buf[k]`, whatever its value (R78); the tenth completes the
frame in the same step (R79). -/
def collectByte (b : Byte) (s : State) : State :=
  let stored := { s with buf := s.buf.setIfInBounds s.count.val b }
  if h : s.count.val + 1 < 10 then { stored with count := ⟨s.count.val + 1, by omega⟩ }
  else completeRead stored

/-- One byte step: one `RxTake()` (R37). With nothing offered it waits, for ever if need be (R82). -/
def byteStep (onByte : Byte → State → State) (s : State) : State :=
  match rxTake s with
  | (.nothing, s') => s'
  | (.byte b, s') => onByte b s'
  | (.err, s') => failRead s'

end Sys2Proof.Machine
end

