-- ==== Sys2Proof/Machine/Dispatch.lean ====
section
/-! DEFINITION. exec: one arm per constructor of Instr, each one call of its meaning. -/

namespace Sys2Proof.Machine

def exec (i : Instr) (s : State) : Host.Outcome State Fault Refusal :=
  match i with
  | .encode cmd len payload => Sys2Proof.Machine.execEncode cmd len payload s
  | .readFrame => Sys2Proof.Machine.execReadFrame s
  | .decodeMeasurement frame => Sys2Proof.Machine.execDecodeMeasurement frame s
  | .decodeFirmware frame => Sys2Proof.Machine.execDecodeFirmware frame s
  | .setMode m => Sys2Proof.Machine.execSetMode m s
  | .queryData => Sys2Proof.Machine.execQueryData s
  | .setDeviceId id => Sys2Proof.Machine.execSetDeviceId id s
  | .setSleep v => Sys2Proof.Machine.execSetSleep v s
  | .queryFirmware => Sys2Proof.Machine.execQueryFirmware s
  | .setWorkingPeriod t => Sys2Proof.Machine.execSetWorkingPeriod t s
  | .measurementResponse pm25 pm10 res6 res7 => Sys2Proof.Machine.execMeasurementResponse pm25 pm10 res6 res7 s

end Sys2Proof.Machine
end

