-- ==== Sys2Proof/Machine/Block.lean ====
section
/-! DEFINITION. One step of the three agents (60_exceptions.md R114): a move of the caller, the transport or reset, or else the block's own step, a fetch from the request port or a byte step. And where a word is put to be run next. -/

namespace Sys2Proof.Machine

/-- Run the instruction a word decodes to; a word that is none is refused by name. -/
def runDecoded (d : Except DecodeError Instr) (s : State) : StepOutcome :=
  match d with
  | .ok i => exec i s
  | .error why => .refused (.undecodable why)

/-- With nothing outstanding the block accepts the oldest offered request (10_state.md R23, 20_memory.md R42); with
none offered it has no step of its own (R114) and the machine stays as it is (log entry 1). -/
def fetch (s : State) : StepOutcome :=
  match s.port with
  | [] => .next s
  | w :: rest => runDecoded (decodeRequest w) { s with port := rest }

/-- The block's own step: a fetch in `IDLE`, a byte step while a READ_FRAME is outstanding, when offered requests are
held (R23, R38). In a sequencer state the spec excludes: the fault of U7. -/
def blockStep (s : State) : StepOutcome :=
  if s.sequencerOk then
    match s.phase with
    | .idle => fetch s
    | .hunt => .next (byteStep huntByte s)
    | .collect => .next (byteStep collectByte s)
  else .fault .illegalSequencer

/-- One step, given the environment's move in it: the move is the whole step unless it is quiet (log entry 9), else the
block makes its own. Reset comes before everything in its step (60_exceptions.md R108(e)). -/
def moveStep (m : EnvMove) (s : State) : StepOutcome :=
  match m with
  | .quiet => blockStep s
  | .offer w => .next (offerRequest w s)
  | .passBack p => .next (passBack p s)
  | .byte b => .next (arrive [.byte b] s)
  | .error => .next (arrive [.err] s)
  | .errorNow => .next (failNext s)
  | .frame bytes => runDecoded (decode ⟨.response, bytes⟩) s
  | .flush => .next (flushInput s)
  | .reset => .next (blockReset s)

/-- One step: the environment's next move is taken (20_memory.md R40, 60_exceptions.md R113) and made. -/
def agentStep (s : State) : StepOutcome := moveStep s.env.next { s with env := s.env.rest }

/-- Put a word where the next step fetches: a request at the head of the request port, with the block idle and the
environment quiet for that step; a response frame as the environment's next move. -/
def offerWord (w : Word) (s : State) : State :=
  match w.format with
  | .operation =>
    { s with phase := .idle, count := 0, pending := none, port := w :: s.port, env := s.env.withMove .quiet }
  | .logical =>
    { s with phase := .idle, count := 0, pending := none, port := w :: s.port, env := s.env.withMove .quiet }
  | .response => { s with env := s.env.withMove (.frame w.bytes) }

end Sys2Proof.Machine
end

