-- ==== Sys2Proof/Machine/Step.lean ====
section
/-! DEFINITION. The step function, and the word it fetches next. -/

namespace Sys2Proof.Machine

/-- One step of the machine. -/
def step (s : State) : Host.Outcome State Fault Refusal := agentStep (beginStep s)

/-- `s` with the table's word placed where `step` fetches its next instruction (log entries 5 and 17). -/
def State.withFetchWord (s : State) (nbits w : Nat) : State := offerWord (tableWord nbits w) s

end Sys2Proof.Machine
end

