-- ==== Sys2Proof/Machine/Ports.lean ====
section
/-! DEFINITION. The output signals of 10_state.md section 4 as functions of the state, the informative mapping of the transaction interface. A field that is not meaningful has no value (U5). -/

namespace Sys2Proof.Machine

/-- Bytes on a bus, byte `i` at bits `[8i+7:8i]` (10_state.md section 4). -/
def packBytes (w : Nat) : List Byte → BitVec w
  | [] => 0
  | b :: rest => b.setWidth w ||| (packBytes w rest <<< 8)

/-- `req_ready`: 1 exactly when `pending` is empty. -/
def State.reqReady (s : State) : Bool := s.pending.isNone

/-- `rx_ready`: 1 exactly when `phase` is `HUNT` or `COLLECT`. -/
def State.rxReady (s : State) : Bool :=
  match s.phase with
  | .idle => false
  | .hunt => true
  | .collect => true

/-- `resp_valid`: a response is offered. -/
def State.respValid (s : State) : Bool := s.response.isSome

/-- `resp_status`: the status code of the response offered (R100). -/
def State.respStatus (s : State) : Option (BitVec 2) := s.response.map fun r => r.status.code

/-- The result fields of the response offered. -/
def State.respResult (s : State) : Result :=
  match s.response with
  | none => .none
  | some r => r.result

/-- `resp_cmd_frame`, 152 bits. -/
def State.respCmdFrame (s : State) : Option (BitVec 152) :=
  match s.respResult with
  | .cmdFrame F => some (packBytes 152 F.toList)
  | .none => none
  | .rspFrame _ => none
  | .measurement _ _ _ => none
  | .firmware _ _ _ _ _ => none

/-- `resp_rsp_frame`, 80 bits. -/
def State.respRspFrame (s : State) : Option (BitVec 80) :=
  match s.respResult with
  | .rspFrame F => some (packBytes 80 F.toList)
  | .none => none
  | .cmdFrame _ => none
  | .measurement _ _ _ => none
  | .firmware _ _ _ _ _ => none

/-- `resp_pm25_raw` and `resp_pm10_raw`. -/
def State.respMeasurement (s : State) : Option (Half × Half) :=
  match s.respResult with
  | .measurement a b _ => some (a, b)
  | .none => none
  | .cmdFrame _ => none
  | .rspFrame _ => none
  | .firmware _ _ _ _ _ => none

/-- `resp_year`, `resp_month`, `resp_day` and `resp_dev_id`. -/
def State.respFirmware (s : State) : Option (Byte × Byte × Byte × Half) :=
  match s.respResult with
  | .firmware y m d i _ => some (y, m, d, i)
  | .none => none
  | .cmdFrame _ => none
  | .rspFrame _ => none
  | .measurement _ _ _ => none

/-- `resp_csum_ok`, 1 bit of a DECODE_* response (R27). -/
def State.respCsumOk (s : State) : Option Bool := s.respResult.csumOk

end Sys2Proof.Machine
end

