-- ==== Sys2Proof/Safety.lean ====
section
/-! DEFINITION. What a legal response and a legal state are, in the terms the statements use. -/

namespace Sys2Proof.Machine

/-- A command frame as every ENCODE builds it (40_encoder.md R70): `AA B4 …`, `… FF FF cs AB`, and `cs` the mod-256
sum of the bytes from offset 2 to 16 (R61). -/
def CmdFrameLegal (F : CmdFrame) : Prop :=
  F[0] = 0xAA ∧ F[1] = 0xB4 ∧ F[15] = 0xFF ∧ F[16] = 0xFF ∧ F[18] = 0xAB
    ∧ F[17].toNat = sumBytes ((F.toList.drop 2).take 15) % 256

/-- A response as R52 and R100 allow it: each operation's statuses with the fields meaningful under them, `csum_ok`
exactly when the status is `OK` (R27), a returned frame beginning with the start marker (R81). -/
def Response.Legal (r : Response) : Prop :=
  match r.result with
  | .none => r.status = .invalidArgument ∨ r.status = .transportError
  | .cmdFrame F => r.status = .ok ∧ CmdFrameLegal F
  | .rspFrame F => r.status = .ok ∧ F[0] = 0xAA
  | .measurement _ _ v => r.status = if v then .ok else .checksumMismatch
  | .firmware _ _ _ _ v => r.status = if v then .ok else .checksumMismatch

/-- The invariant of the machine: the sequencer registers fit together (R20, R21, R23), `buf` holds the start marker
while a frame is collected (R22), and every response delivered or driven is legal. -/
structure State.Inv (s : State) : Prop where
  sequencer : s.sequencerOk = true
  start : s.phase = .collect → s.buf[0] = 0xAA
  delivered : ∀ r ∈ s.delivered, r.Legal
  response : ∀ r, s.response = some r → r.Legal

/-- The state after a request was answered in one step (60_exceptions.md R104) by an operation that has no other
effect: the response is driven and delivered, every other field is as it was. -/
def State.answered (s : State) (st : Status) (res : Result) : State :=
  { s with response := some ⟨st, res⟩, delivered := s.delivered ++ [⟨st, res⟩] }

/-- A READ_FRAME is outstanding, the sequencer registers fit together, and the step to come is the block's: whatever
moves come later, the next one is quiet. -/
abbrev State.Reading (s : State) : Prop :=
  s.env.next = .quiet ∧ s.sequencerOk = true ∧ s.phase ≠ .idle

/-- The environment never moves again (20_memory.md R40: it may offer nothing, ever). -/
abbrev Environment.Quiet (e : Environment) : Prop :=
  (∀ m ∈ e.moves, m = .quiet) ∧ e.tail = .repeating []

/-- The environment is free in every step to come (20_memory.md R40). -/
abbrev Environment.Free (e : Environment) : Prop :=
  e.moves = [] ∧ ∃ n : Nat, e.tail = .free n

/-- The environment's moves after the next `k`. -/
def Environment.after : Nat → Environment → Environment
  | 0, e => e
  | k + 1, e => e.rest.after k

/-- The environment is quiet in the next `k` steps, whatever it does later. -/
def Environment.quietFor : Nat → Environment → Bool
  | 0, _ => true
  | k + 1, e => decide (e.next = .quiet) && e.rest.quietFor k

/-- A move of the caller (60_exceptions.md R113, R114(a)). -/
abbrev EnvMove.Caller (m : EnvMove) : Prop :=
  (∃ w : Word, m = .offer w) ∨ ∃ p : Config.Parser, m = .passBack p

/-- A word the block serves: a request, and no DECODE_MEASUREMENT of another subtype (60_exceptions.md R113, R93). -/
def Servable (w : Word) : Prop :=
  ∃ i : Instr, decodeRequest w = .ok i ∧ ∀ F : RspFrame, i = .decodeMeasurement F → F[1] = 0xC0

/-- A move that is quiet, the caller's, or offers a byte other than the start marker. -/
abbrev EnvMove.Noise (m : EnvMove) : Prop :=
  m = .quiet ∨ m.Caller ∨ ∃ b : Byte, b ≠ 0xAA ∧ m = .byte b

/-- The transport offers nothing but noise and the caller any requests: no start marker, no error, no reset, in no step
to come. -/
abbrev Environment.Noisy (e : Environment) : Prop :=
  (∀ m ∈ e.moves, m.Noise) ∧ ∃ loop : List EnvMove, e.tail = .repeating loop ∧ ∀ m ∈ loop, m.Noise

end Sys2Proof.Machine
end

