-- ==== Sys2Proof/Certificates/Slice0/Obligations.lean ====
section
/-! DEFINITION. The statements for the provers, each from the numbered rules of spec/. -/

open Sys2Proof Sys2Proof.Machine

/-! ## Words -/

/-- Decode and encode agree on every well-formed instruction, with every operand at every value. -/
def Obligations.DecodeOfEncodeIsIdentity : Prop :=
  ∀ i : Instr, i.wellFormed = true → decode (encode i) = .ok i

/-- The decoder answers well-formed instructions only. -/
def Obligations.DecodedInstructionsAreWellFormed : Prop :=
  ∀ (w : Word) (i : Instr), decode w = .ok i → i.wellFormed = true

/-- R51: every 2-bit `op` selects an operation, and a field not listed for it is ignored. The packing of the word is
the model's choice (log entry 2). -/
def Obligations.EveryOperationSelectDecodes : Prop :=
  ∀ (x cmd len : Byte) (payload : Payload) (frame : RspFrame),
    decode ⟨.operation, x :: cmd :: len :: (payload.toList ++ frame.toList)⟩ =
      .ok (if x.toNat % 4 = 0 then .encode cmd len.toNat payload
           else if x.toNat % 4 = 1 then .readFrame
           else if x.toNat % 4 = 2 then .decodeMeasurement frame
           else .decodeFirmware frame)

/-- R46, R58: a logical command's word decodes exactly for the six named codes and the operand ranges they have. The
packing of the word is the model's choice (log entry 3). -/
def Obligations.LogicalWordDecodesOnlyInRange : Prop :=
  ∀ (code lo hi : Byte) (i : Instr),
    decode ⟨.logical, [code, lo, hi]⟩ = .ok i ↔
      (code = 0x02 ∧ hi = 0 ∧ i = .setMode lo) ∨
      (code = 0x04 ∧ lo = 0 ∧ hi = 0 ∧ i = .queryData) ∨
      (code = 0x05 ∧ i = .setDeviceId (BitVec.ofNat 16 (lo.toNat + 256 * hi.toNat))) ∨
      (code = 0x06 ∧ hi = 0 ∧ (lo = 0 ∨ lo = 1) ∧ i = .setSleep lo) ∨
      (code = 0x07 ∧ lo = 0 ∧ hi = 0 ∧ i = .queryFirmware) ∨
      (code = 0x08 ∧ hi = 0 ∧ i = .setWorkingPeriod lo)

/-- A few words written out from R46, R48 and R51 decode to the instructions they stand for (packing: log entries 2
to 4). -/
def Obligations.SampleWordsDecode : Prop :=
  decode ⟨.operation, [0x00, 0x05, 12, 0, 0, 0, 0, 0, 0, 0, 0, 0, 0, 0x34, 0x12, 0, 0, 0, 0, 0, 0, 0, 0, 0, 0]⟩
      = .ok (.encode 0x05 12 #v[0, 0, 0, 0, 0, 0, 0, 0, 0, 0, 0x34, 0x12]) ∧
  decode ⟨.operation, [0x02, 0, 0, 0, 0, 0, 0, 0, 0, 0, 0, 0, 0, 0, 0, 0xAA, 0xC0, 0x64, 0x00, 0xC8, 0x00, 0x00, 0x00, 0x2C, 0xAB]⟩
      = .ok (.decodeMeasurement #v[0xAA, 0xC0, 0x64, 0x00, 0xC8, 0x00, 0x00, 0x00, 0x2C, 0xAB]) ∧
  decode ⟨.logical, [0x05, 0x34, 0x12]⟩ = .ok (.setDeviceId 0x1234) ∧
  decode ⟨.response, [0xC0, 0x64, 0x00, 0xC8, 0x00, 0x00, 0x00]⟩ = .ok (.measurementResponse 100 200 0 0)

/-! ## Frame Encoder -/

/-- R62: ENCODE answers the 19-byte frame of its operands for a length up to 12, and INVALID_ARGUMENT without a frame
above; nothing but the response changes. -/
def Obligations.EncodeAnswersFrameOrInvalidArgument : Prop :=
  ∀ (cmd : Byte) (len : Nat) (payload : Payload) (s : State), s.pending = none →
    (len ≤ 12 →
      ∃ F : CmdFrame,
        exec (.encode cmd len payload) s = .next (s.answered .ok (.cmdFrame F)) ∧
        F[0] = 0xAA ∧ F[1] = 0xB4 ∧ F[2] = cmd ∧
        (∀ (k : Nat) (_ : k < 12), F[3 + k] = if k < len then payload[k] else 0x00) ∧
        F[15] = 0xFF ∧ F[16] = 0xFF ∧
        (F[17].toNat : Int) = ((sumBytes ((F.toList.drop 3).take 12) : Int) + cmd.toNat - 2) % 256 ∧
        F[18] = 0xAB) ∧
    (12 < len → exec (.encode cmd len payload) s = .next (s.answered .invalidArgument .none))

/-- R53: right zero-padding to 12 bytes, no byte moved; a longer payload is an error, never truncated. -/
def Obligations.PayloadIsPaddedNeverTruncated : Prop :=
  ∀ (p : List Byte),
    (p.length ≤ 12 →
      ∀ (k : Nat) (_ : k < 12), (padPayload p)[k] = if h : k < p.length then p[k] else 0x00) ∧
    (12 < p.length → ∀ cmd : Byte, encodeCommand cmd p = .error (.invalidArgument p.length))

/-- R60: the checksum of a command frame, and the pad bytes add nothing to it. -/
def Obligations.CommandChecksumIsSumMinusTwo : Prop :=
  (∀ (cmd : Byte) (q : Payload),
    ((cmdChecksum cmd q).toNat : Int) = ((sumBytes q.toList : Int) + cmd.toNat - 2) % 256) ∧
  (∀ p : List Byte, p.length ≤ 12 → sumBytes (padPayload p).toList = sumBytes p)

/-- R61: the checksum as 8-bit wrapping sums: with `0xFE`, and over `F[2..17]` of the frame built. -/
def Obligations.CommandChecksumEquivalentForms : Prop :=
  ∀ (cmd : Byte) (q : Payload),
    cmdChecksum cmd q = cmd + q.toList.foldl (· + ·) 0 + 0xFE ∧
    cmdChecksum cmd q = (((cmdFrameOf cmd q).toList.drop 2).take 15).foldl (· + ·) 0

/-- R70: the value that the checksum byte of every frame reduces mod 256 lies in −2 to 3313, and both ends are attained:
at the command 0 with twelve zero bytes (checksum `0xFE`) and at the command 255 with twelve bytes 255 (`0xF1`). -/
def Obligations.UnreducedChecksumRange : Prop :=
  (∀ (cmd : Byte) (q : Payload), ∃ v : Int,
    v = (sumBytes q.toList : Int) + cmd.toNat - 2 ∧ -2 ≤ v ∧ v ≤ 3313 ∧
    ((cmdChecksum cmd q).toNat : Int) = v % 256 ∧ (((cmdFrameOf cmd q)[17]).toNat : Int) = v % 256) ∧
  (sumBytes (Vector.replicate 12 (0x00 : Byte)).toList : Int) + (0x00 : Byte).toNat - 2 = -2 ∧
  cmdChecksum 0x00 (Vector.replicate 12 0x00) = 0xFE ∧
  (sumBytes (Vector.replicate 12 (0xFF : Byte)).toList : Int) + (0xFF : Byte).toNat - 2 = 3313 ∧
  cmdChecksum 0xFF (Vector.replicate 12 0xFF) = 0xF1

/-- R63: SET_MODE answers its frame, and is the ENCODE it expands to. -/
def Obligations.SetModeAnswersFrame : Prop :=
  ∀ (m : Byte) (s : State), s.pending = none →
    exec (.setMode m) s = .next (s.answered .ok (.cmdFrame
      #v[0xAA, 0xB4, 0x02, 0x01, m, 0, 0, 0, 0, 0, 0, 0, 0, 0, 0, 0xFF, 0xFF, m + 1, 0xAB])) ∧
    exec (.setMode m) s = exec (.encode 0x02 2 #v[1, m, 0, 0, 0, 0, 0, 0, 0, 0, 0, 0]) s

/-- R64: QUERY_DATA answers its constant frame, and is the ENCODE it expands to. -/
def Obligations.QueryDataAnswersFrame : Prop :=
  ∀ s : State, s.pending = none →
    exec .queryData s = .next (s.answered .ok (.cmdFrame
      #v[0xAA, 0xB4, 0x04, 0, 0, 0, 0, 0, 0, 0, 0, 0, 0, 0, 0, 0xFF, 0xFF, 0x02, 0xAB])) ∧
    exec .queryData s = exec (.encode 0x04 0 (Vector.replicate 12 0)) s

/-- R65: SET_DEVICE_ID answers its frame, the ID's low byte first, and is the ENCODE it expands to. -/
def Obligations.SetDeviceIdAnswersFrame : Prop :=
  ∀ (id : Half) (s : State), s.pending = none →
    exec (.setDeviceId id) s = .next (s.answered .ok (.cmdFrame
      #v[0xAA, 0xB4, 0x05, 0, 0, 0, 0, 0, 0, 0, 0, 0, 0,
        BitVec.ofNat 8 (id.toNat % 256), BitVec.ofNat 8 (id.toNat / 256), 0xFF, 0xFF,
        BitVec.ofNat 8 (id.toNat % 256 + id.toNat / 256 + 3), 0xAB])) ∧
    exec (.setDeviceId id) s = exec (.encode 0x05 12 #v[0, 0, 0, 0, 0, 0, 0, 0, 0, 0,
      id.extractLsb' 0 8, id.extractLsb' 8 8]) s

/-- R66: SET_SLEEP answers its frame for 0 and 1. Another operand is refused by the syntax, and can still be sent as
the ENCODE it expands to. That the meaning refuses it too is the model's inference (log entry 15). -/
def Obligations.SetSleepAnswersFrameInRange : Prop :=
  ∀ (v : Byte) (s : State), s.pending = none →
    (v.toNat ≤ 1 → exec (.setSleep v) s = .next (s.answered .ok (.cmdFrame
      #v[0xAA, 0xB4, 0x06, 0x01, v, 0, 0, 0, 0, 0, 0, 0, 0, 0, 0, 0xFF, 0xFF, v + 5, 0xAB]))) ∧
    (1 < v.toNat → exec (.setSleep v) s = .refused .sleepOperand) ∧
    exec (.encode 0x06 2 #v[1, v, 0, 0, 0, 0, 0, 0, 0, 0, 0, 0]) s = .next (s.answered .ok (.cmdFrame
      #v[0xAA, 0xB4, 0x06, 0x01, v, 0, 0, 0, 0, 0, 0, 0, 0, 0, 0, 0xFF, 0xFF, v + 5, 0xAB]))

/-- R67: QUERY_FIRMWARE answers its constant frame, and is the ENCODE it expands to. -/
def Obligations.QueryFirmwareAnswersFrame : Prop :=
  ∀ s : State, s.pending = none →
    exec .queryFirmware s = .next (s.answered .ok (.cmdFrame
      #v[0xAA, 0xB4, 0x07, 0, 0, 0, 0, 0, 0, 0, 0, 0, 0, 0, 0, 0xFF, 0xFF, 0x05, 0xAB])) ∧
    exec .queryFirmware s = exec (.encode 0x07 0 (Vector.replicate 12 0)) s

/-- R68: SET_WORKING_PERIOD answers its frame, and is the ENCODE it expands to. -/
def Obligations.SetWorkingPeriodAnswersFrame : Prop :=
  ∀ (t : Byte) (s : State), s.pending = none →
    exec (.setWorkingPeriod t) s = .next (s.answered .ok (.cmdFrame
      #v[0xAA, 0xB4, 0x08, 0x01, t, 0, 0, 0, 0, 0, 0, 0, 0, 0, 0, 0xFF, 0xFF, t + 7, 0xAB])) ∧
    exec (.setWorkingPeriod t) s = exec (.encode 0x08 2 #v[1, t, 0, 0, 0, 0, 0, 0, 0, 0, 0, 0]) s

/-- R58, R66: in every state a logical command does what the ENCODE it expands to does, whatever the payload bus holds
above the length; SET_SLEEP takes 0 and 1 only. That another operand is refused in the meaning too, and in a busy state
as well, is the model's inference (log entry 15). -/
def Obligations.LogicalCommandsExpandToEncode : Prop :=
  ∀ (bus : Payload) (s : State),
    (bus[0] = 1 → exec (.setMode bus[1]) s = exec (.encode 0x02 2 bus) s) ∧
    exec .queryData s = exec (.encode 0x04 0 bus) s ∧
    ((∀ (k : Nat) (_ : k < 10), bus[k] = 0) →
      exec (.setDeviceId (BitVec.ofNat 16 (bus[10].toNat + 256 * bus[11].toNat))) s = exec (.encode 0x05 12 bus) s) ∧
    (bus[0] = 1 → bus[1].toNat ≤ 1 → exec (.setSleep bus[1]) s = exec (.encode 0x06 2 bus) s) ∧
    (1 < bus[1].toNat → exec (.setSleep bus[1]) s = .refused .sleepOperand) ∧
    exec .queryFirmware s = exec (.encode 0x07 0 bus) s ∧
    (bus[0] = 1 → exec (.setWorkingPeriod bus[1]) s = exec (.encode 0x08 2 bus) s)

/-- R54: payload bytes at index `len` and above are ignored, and for a length over 12 no payload byte matters. -/
def Obligations.PayloadBytesBeyondLengthIgnored : Prop :=
  ∀ (cmd : Byte) (len : Nat) (p p' : Payload) (s : State),
    (len ≤ 12 → ∀ (k : Nat) (_ : k < 12), k < len → p[k] = p'[k]) →
    exec (.encode cmd len p) s = exec (.encode cmd len p') s

/-- R69: ENCODE's response is a function of its operands alone, the same in any two states that accept it, and it
leaves every register, the stream and the ports as they were. -/
def Obligations.EncodeIsPure : Prop :=
  ∀ (cmd : Byte) (len : Nat) (payload : Payload), ∃ r : Response, ∀ s : State, s.pending = none →
    exec (.encode cmd len payload) s = .next (s.answered r.status r.result)

/-! ## Resynchroniser -/

/-- R75: READ_FRAME is accepted and begins to hunt; the stream is not yet touched. -/
def Obligations.ReadFrameBeginsHunting : Prop :=
  ∀ s : State, s.pending = none →
    exec .readFrame s = .next { s with pending := some .readFrame, phase := .hunt, count := 0 }

/-- R76: in HUNT a byte other than the start marker is discarded and nothing else happens. -/
def Obligations.HuntDiscardsOtherBytes : Prop :=
  ∀ (s : State) (b : Byte) (rest : List RxItem),
    s.Reading → s.phase = .hunt → s.rx = .byte b :: rest → b ≠ 0xAA →
    step s = .next { s with env := s.env.rest, rx := rest, response := none }

/-- R77: in HUNT the start marker begins the frame. That the nine bytes of `buf` above it stay as they were is the
model's choice (log entry 19). -/
def Obligations.HuntStartMarkerBeginsFrame : Prop :=
  ∀ (s : State) (rest : List RxItem),
    s.Reading → s.phase = .hunt → s.rx = .byte 0xAA :: rest →
    ∃ t : State, step s = .next t ∧
      t = { s with
            env := s.env.rest, rx := rest, response := none, buf := t.buf, count := 1, phase := .collect } ∧
      t.buf[0] = 0xAA ∧ ∀ (j : Nat) (_ : j < 10), j ≠ 0 → t.buf[j] = s.buf[j]

/-- R78: in COLLECT with `count = k`, 1 to 8, a byte of any value is stored at `buf[k]` and the count goes up.
That the bytes of `buf` above `k` stay as they were is the model's choice (log entry 19). -/
def Obligations.CollectStoresByte : Prop :=
  ∀ (s : State) (b : Byte) (rest : List RxItem),
    s.Reading → s.phase = .collect → s.rx = .byte b :: rest → s.count.val ≤ 8 →
    ∃ t : State, step s = .next t ∧
      t = { s with env := s.env.rest, rx := rest, response := none, buf := t.buf, count := t.count } ∧
      t.count.val = s.count.val + 1 ∧
      ∀ (j : Nat) (_ : j < 10), t.buf[j] = if j = s.count.val then b else s.buf[j]

/-- R78, R79: in COLLECT with `count = 9` the byte completes the frame in the same step, and the READ_FRAME is
answered with it. -/
def Obligations.CollectCompletesFrame : Prop :=
  ∀ (s : State) (b : Byte) (rest : List RxItem),
    s.Reading → s.phase = .collect → s.rx = .byte b :: rest → s.count.val = 9 →
    ∃ F : RspFrame, F[9] = b ∧ (∀ (j : Nat) (_ : j < 9), F[j] = s.buf[j]) ∧
      step s = .next
        { s with
          env := s.env.rest, rx := rest, buf := F, phase := .idle, count := 0, pending := none
          response := some ⟨.ok, .rspFrame F⟩, delivered := s.delivered ++ [⟨.ok, .rspFrame F⟩] }

/-- R80, R103: a transport error in HUNT or COLLECT ends the READ_FRAME with TRANSPORT_ERROR and no frame; the stream
after it is some suffix of what followed (U4: a free value, so nothing is said of how much is gone). -/
def Obligations.TransportErrorEndsRead : Prop :=
  ∀ (s : State) (rest : List RxItem), s.Reading → s.rx = .err :: rest →
    ∃ n : Nat, step s = .next
      { s with
        env := s.env.rest, rx := rest.drop n, draws := s.draws + 1, phase := .idle, count := 0, pending := none
        response := some ⟨.transportError, .none⟩, delivered := s.delivered ++ [⟨.transportError, .none⟩] }

/-- R37, R82, R114: a READ_FRAME whose stream is empty waits, in HUNT and in COLLECT: the block takes no step. That the
wait is a step that changes nothing but the response driven before it is the model's inference (log entries 1, 13). -/
def Obligations.WaitingReadStutters : Prop :=
  ∀ s : State, s.Reading → s.rx = [] → step s = .next { s with env := s.env.rest, response := none }

/-- R82: with no start marker in the stream, or fewer than nine bytes after it, no error, and a transport that offers no
more, the READ_FRAME never completes: the run goes on for ever, the request stays pending and no later request is
accepted. Over noise the registers stay; after a start marker the bytes that followed it are in `buf`. -/
def Obligations.ReadFrameMayNeverComplete : Prop :=
  ∀ (s : State) (noise tail : List Byte),
    s.env.Quiet → s.sequencerOk = true → s.phase = .hunt → s.rx = (noise ++ tail).map .byte →
    (∀ b ∈ noise, b ≠ 0xAA) → (tail = [] ∨ ∃ d : List Byte, tail = 0xAA :: d ∧ d.length < 9) →
    ∀ n : Nat, ∃ t : State, Host.Core.run Sys2Proof.core n s = .next t ∧
      t.pending = some .readFrame ∧ t.port = s.port ∧ t.delivered = s.delivered ∧
      t.rx = s.rx.drop n ∧
      (n ≤ noise.length ∨ tail = [] → t.phase = .hunt ∧ t.count.val = 0 ∧ t.buf = s.buf) ∧
      (noise.length < n → tail ≠ [] →
        t.phase = .collect ∧ t.count.val = min (n - noise.length) tail.length ∧
        ∀ (j : Nat) (_ : j < 10), j < t.count.val → tail[j]? = some t.buf[j])

/-- R40, R76, R82: under a transport that offers noise without end, and never a start marker or an error, the READ_FRAME
never completes, whatever requests the caller issues meanwhile: it hunts for ever, with its registers as they were,
and every request offered stays on the port. -/
def Obligations.EndlessNoiseNeverCompletes : Prop :=
  ∀ s : State, s.env.Noisy → s.sequencerOk = true → s.phase = .hunt → (∀ x ∈ s.rx, ∃ b : Byte, b ≠ 0xAA ∧ x = .byte b) →
    ∀ n : Nat, ∃ t : State, Host.Core.run Sys2Proof.core n s = .next t ∧
      t.phase = .hunt ∧ t.count.val = 0 ∧ t.buf = s.buf ∧ t.pending = some .readFrame ∧ s.port <+: t.port ∧
      t.delivered = s.delivered ∧ t.draws = s.draws ∧ (∀ x ∈ t.rx, ∃ b : Byte, b ≠ 0xAA ∧ x = .byte b) ∧ t.env.Noisy

/-- R83: of a stream of noise, a start marker, nine bytes and a rest, READ_FRAME takes exactly the noise and the ten
bytes, returns the ten, and leaves the rest; the noise is of any length and the nine bytes of any value. -/
def Obligations.ReadFrameTakesNoiseAndTenBytes : Prop :=
  ∀ (s : State) (noise : List Byte) (d : Vector Byte 9) (rest : List RxItem),
    s.env.quietFor (noise.length + 10) = true → s.sequencerOk = true → s.phase = .hunt → (∀ b ∈ noise, b ≠ 0xAA) →
    s.rx = noise.map .byte ++ .byte 0xAA :: (d.toList.map .byte ++ rest) →
    ∃ F : RspFrame, F.toList = 0xAA :: d.toList ∧
      Host.Core.run Sys2Proof.core (noise.length + 10) s = .next
        { s with
          env := s.env.after (noise.length + 10), rx := rest, buf := F, phase := .idle, count := 0, pending := none
          response := some ⟨.ok, .rspFrame F⟩, delivered := s.delivered ++ [⟨.ok, .rspFrame F⟩] }

/-! ## Typed parsers -/

/-- R92, R98: DECODE_MEASUREMENT on a frame of subtype `0xC0`: little-endian fields, validity from the six data bytes
and the trailer, the fields under both statuses; another subtype is refused. -/
def Obligations.DecodeMeasurementAnswersFields : Prop :=
  ∀ (F : RspFrame) (s : State), s.pending = none →
    (F[1] = 0xC0 →
      exec (.decodeMeasurement F) s =
        .next (s.answered
          (if (F[2].toNat + F[3].toNat + F[4].toNat + F[5].toNat + F[6].toNat + F[7].toNat) % 256 = F[8].toNat ∧ F[9] = 0xAB
            then .ok else .checksumMismatch)
          (.measurement (BitVec.ofNat 16 (F[2].toNat + 256 * F[3].toNat)) (BitVec.ofNat 16 (F[4].toNat + 256 * F[5].toNat))
            (decide ((F[2].toNat + F[3].toNat + F[4].toNat + F[5].toNat + F[6].toNat + F[7].toNat) % 256 = F[8].toNat
              ∧ F[9] = 0xAB))))) ∧
    (F[1] ≠ 0xC0 → exec (.decodeMeasurement F) s = .refused .measurementSubtype)

/-- R95, R98: DECODE_FIRMWARE on any frame. -/
def Obligations.DecodeFirmwareAnswersFields : Prop :=
  ∀ (F : RspFrame) (s : State), s.pending = none →
    exec (.decodeFirmware F) s =
      .next (s.answered
        (if (F[2].toNat + F[3].toNat + F[4].toNat + F[5].toNat + F[6].toNat + F[7].toNat) % 256 = F[8].toNat ∧ F[9] = 0xAB
          then .ok else .checksumMismatch)
        (.firmware F[3] F[4] F[5] (BitVec.ofNat 16 (F[6].toNat + 256 * F[7].toNat))
          (decide ((F[2].toNat + F[3].toNat + F[4].toNat + F[5].toNat + F[6].toNat + F[7].toNat) % 256 = F[8].toNat
            ∧ F[9] = 0xAB))))

/-- R90: the checksum of a response frame is the sum of the six data bytes mod 256; start marker, subtype, checksum
byte and trailer take no part. -/
def Obligations.ResponseChecksumWindow : Prop :=
  ∀ (F : RspFrame) (b : Byte),
    (respChecksum F).toNat = (F[2].toNat + F[3].toNat + F[4].toNat + F[5].toNat + F[6].toNat + F[7].toNat) % 256 ∧
    respChecksum (F.set 0 b) = respChecksum F ∧ respChecksum (F.set 1 b) = respChecksum F ∧
    respChecksum (F.set 8 b) = respChecksum F ∧ respChecksum (F.set 9 b) = respChecksum F

/-- R99: a change of the checksum byte by a nonzero amount makes a valid frame invalid, a trailer other than `0xAB`
makes any frame invalid, and neither changes a field either parser returns. -/
def Obligations.ChecksumAndTrailerChangesDetected : Prop :=
  ∀ (F : RspFrame) (δ t : Byte),
    (validFrame F = true → δ ≠ 0 → validFrame (F.set 8 (F[8] + δ)) = false) ∧
    (t ≠ 0xAB → validFrame (F.set 9 t) = false) ∧
    ∀ G : RspFrame, G = F.set 8 (F[8] + δ) ∨ G = F.set 9 t →
      ∀ s : State, s.pending = none →
        (F[1] = 0xC0 → exec (.decodeMeasurement G) s = .next (s.answered (decodeStatus G)
          (.measurement (pm25Raw F) (pm10Raw F) (validFrame G)))) ∧
        exec (.decodeFirmware G) s = .next (s.answered (decodeStatus G)
          (.firmware F[3] F[4] F[5] (devId F) (validFrame G)))

/-- R99: two changes of data bytes that cancel mod 256 are not detected. -/
def Obligations.CancellingChangesNotDetected : Prop :=
  ∀ (F : RspFrame) (j k : Nat) (_ : 2 ≤ j) (_ : j < k) (_ : k < 8) (δ : Byte),
    validFrame ((F.set j (F[j] + δ)).set k (F[k] - δ)) = validFrame F

/-- R96, R97: neither parser reads the start marker, and DECODE_FIRMWARE does not read the subtype, in any state. -/
def Obligations.ParsersIgnoreMarkerAndFirmwareSubtype : Prop :=
  ∀ (F : RspFrame) (b : Byte) (s : State),
    exec (.decodeMeasurement (F.set 0 b)) s = exec (.decodeMeasurement F) s ∧
    exec (.decodeFirmware (F.set 0 b)) s = exec (.decodeFirmware F) s ∧
    exec (.decodeFirmware (F.set 1 b)) s = exec (.decodeFirmware F) s

/-- R10: `le16` puts the first byte at bits 7 to 0 and the second at bits 15 to 8. -/
def Obligations.LittleEndianAssembly : Prop :=
  ∀ lo hi : Byte,
    le16 lo hi = (lo.zeroExtend 16 ||| (hi.zeroExtend 16 <<< 8)) ∧
    (le16 lo hi).extractLsb' 0 8 = lo ∧ (le16 lo hi).extractLsb' 8 8 = hi ∧
    (le16 lo hi).toNat = lo.toNat + 256 * hi.toNat

/-- R94: the concentration is the exact rational `raw / 10`, its decimal digits are `raw div 10` and `raw mod 10`, and
it lies in 0.0 to 6553.5. -/
def Obligations.ConcentrationIsExactTenths : Prop :=
  ∀ raw : Half,
    10 * concentration raw = (raw.toNat : Rat) ∧
    concentration raw = ((concentrationDecimal raw).1 : Rat) + ((concentrationDecimal raw).2 : Rat) / 10 ∧
    (concentrationDecimal raw).2 < 10 ∧ 0 ≤ concentration raw ∧ concentration raw ≤ 65535 / 10

/-! ## The environment -/

/-- R34, R48: the frame of a MEASUREMENT_RESPONSE reaches the end of the receive stream in index order and the block
does nothing. That the row's meaning is this arrival is the model's choice (log entry 4). -/
def Obligations.MeasurementResponseArrivesInOrder : Prop :=
  ∀ (pm25 pm10 : Half) (res6 res7 : Byte) (s : State),
    exec (.measurementResponse pm25 pm10 res6 res7) s = .next
      { s with rx := s.rx ++ [.byte 0xAA, .byte 0xC0,
        .byte (BitVec.ofNat 8 (pm25.toNat % 256)), .byte (BitVec.ofNat 8 (pm25.toNat / 256)),
        .byte (BitVec.ofNat 8 (pm10.toNat % 256)), .byte (BitVec.ofNat 8 (pm10.toNat / 256)),
        .byte res6, .byte res7,
        .byte (BitVec.ofNat 8 (pm25.toNat % 256 + pm25.toNat / 256 + pm10.toNat % 256 + pm10.toNat / 256
          + res6.toNat + res7.toNat)), .byte 0xAB] }

/-- R48, R83, R92: a measurement response that arrives, read by a READ_FRAME from an empty stream and decoded, gives
its own fields with `OK`. (The arrival is the model's reading of the response row, log entry 4.) -/
def Obligations.MeasurementRoundTrip : Prop :=
  ∀ (pm25 pm10 : Half) (res6 res7 : Byte) (s : State),
    s.env.quietFor 10 = true → s.phase = .idle → s.sequencerOk = true → s.rx = [] →
    ∃ (F : RspFrame) (s1 s2 s3 : State),
      exec (.measurementResponse pm25 pm10 res6 res7) s = .next s1 ∧
      exec .readFrame s1 = .next s2 ∧
      Host.Core.run Sys2Proof.core 10 s2 = .next s3 ∧
      s3.rx = [] ∧ s3.pending = none ∧ s3.delivered = s.delivered ++ [⟨.ok, .rspFrame F⟩] ∧
      exec (.decodeMeasurement F) s3 = .next (s3.answered .ok (.measurement pm25 pm10 true))

/-- R120, R121: reset, at any time and in any state, drops the outstanding request with no response, sets the
registers to their reset values and leaves the stream and the ports alone. Nothing is said of `buf` (unspecified). -/
def Obligations.ResetDropsRequestAndKeepsStream : Prop :=
  ∀ s : State, s.env.next = .reset →
    ∃ b : RspFrame, step s = .next
      { s with phase := .idle, count := 0, buf := b, pending := none, response := none, env := s.env.rest
               draws := s.draws + 1 }

/-- R38, R40, R43, R114: the transport's own moves change the receive stream and nothing of the block: a byte joins the
end, an error stands behind the bytes held or before them (that these are its places is the model's choice, log entry
23), flush_input removes every byte and adds nothing. In a quiet step the block makes its own step. -/
def Obligations.TransportMovesOnlyTheStream : Prop :=
  ∀ s : State,
    (∀ b : Byte, s.env.next = .byte b →
      step s = .next { s with rx := s.rx ++ [.byte b], env := s.env.rest, response := none }) ∧
    (s.env.next = .error →
      step s = .next { s with rx := s.rx ++ [.err], env := s.env.rest, response := none }) ∧
    (s.env.next = .errorNow →
      step s = .next { s with rx := .err :: s.rx, env := s.env.rest, response := none }) ∧
    (s.env.next = .flush →
      ∃ left : List RxItem, left.Sublist s.rx ∧ (∀ b : Byte, .byte b ∉ left) ∧
        step s = .next { s with rx := left, env := s.env.rest, response := none }) ∧
    (s.env.next = .quiet → step s = blockStep { s with env := s.env.rest, response := none })

/-- R23, R113, R114: the caller's moves change the request port and nothing else: a request joins its end. The caller may
pass the last frame it was given back to either parser, to DECODE_MEASUREMENT when it has the subtype `0xC0`, and
issues nothing otherwise (the model's choice, log entry 24). Its free choice is any of the four requests with any
operands, but for the refused DECODE_MEASUREMENT, in a word that decodes to it (packing: log entry 2). -/
def Obligations.CallerMovesOnlyThePort : Prop :=
  (∀ (s : State) (w : Word), s.env.next = .offer w →
    step s = .next { s with port := s.port ++ [w], env := s.env.rest, response := none }) ∧
  (∀ (s : State) (F : RspFrame), lastFrame s.delivered = some F →
    (s.env.next = .passBack .measurement → F[1] = 0xC0 →
      step s = .next
        { s with port := s.port ++ [encode (.decodeMeasurement F)], env := s.env.rest, response := none }) ∧
    (s.env.next = .passBack .measurement → F[1] ≠ 0xC0 →
      step s = .next { s with env := s.env.rest, response := none }) ∧
    (s.env.next = .passBack .firmware →
      step s = .next
        { s with port := s.port ++ [encode (.decodeFirmware F)], env := s.env.rest, response := none })) ∧
  (∀ (s : State) (p : Config.Parser), lastFrame s.delivered = none → s.env.next = .passBack p →
    step s = .next { s with env := s.env.rest, response := none }) ∧
  ∀ (op : BitVec 2) (cmd len : Byte) (payload : Payload) (frame : RspFrame),
    (op = 0b10 ∧ frame[1] ≠ 0xC0 → requestMove op cmd len payload frame = .quiet) ∧
    (op ≠ 0b10 ∨ frame[1] = 0xC0 →
      ∃ w : Word, requestMove op cmd len payload frame = .offer w ∧
        decodeRequest w = .ok
          (if op = 0b00 then .encode cmd len.toNat payload else if op = 0b01 then .readFrame
           else if op = 0b10 then .decodeMeasurement frame else .decodeFirmware frame))

/-- R24, R113, R114, R115: a whole exchange as one run, in which the caller uses a response it took in the run. The
device sends a measurement response, the caller issues READ_FRAME, the block accepts it and takes the ten bytes, the
caller passes the frame it was given back, and the block answers the fields sent with `OK`. The arrival and the moves
are the model's reading of the agents (log entries 4, 9 and 24). -/
def Obligations.CallerReadsAndDecodesInOneRun : Prop :=
  ∀ (pm25 pm10 : Half) (res6 res7 : Byte) (tail : EnvTail) (s : State),
    s.env = ⟨[.frame (encode (.measurementResponse pm25 pm10 res6 res7)).bytes, .offer (encode .readFrame)]
      ++ List.replicate 11 .quiet ++ [.passBack .measurement, .quiet], tail⟩ →
    s.phase = .idle → s.sequencerOk = true → s.port = [] → s.rx = [] →
    ∃ F : RspFrame, Host.Core.run Sys2Proof.core 15 s = .next
      { s with
        env := ⟨[], tail⟩, buf := F, response := some ⟨.ok, .measurement pm25 pm10 true⟩
        delivered := s.delivered ++ [⟨.ok, .rspFrame F⟩, ⟨.ok, .measurement pm25 pm10 true⟩] }

/-- R40: the moves of the environment come in their order; a repeating tail makes its moves over and over (with none
it is quiet for ever), a free tail goes on to its next choice, and no choice of it is a response word. The list and its
tails are the model's choice (log entry 9). -/
def Obligations.EnvironmentMovesInTurn : Prop :=
  ∀ (m : EnvMove) (l : List EnvMove) (tail : EnvTail) (n : Nat) (bytes : List Byte),
    (Environment.next ⟨m :: l, tail⟩ = m ∧ Environment.rest ⟨m :: l, tail⟩ = ⟨l, tail⟩) ∧
    (Environment.next ⟨[], .repeating []⟩ = .quiet ∧ Environment.rest ⟨[], .repeating []⟩ = ⟨[], .repeating []⟩) ∧
    (Environment.next ⟨[], .repeating (m :: l)⟩ = m ∧
      Environment.rest ⟨[], .repeating (m :: l)⟩ = ⟨l, .repeating (m :: l)⟩) ∧
    (Environment.next ⟨[], .free n⟩ ≠ .frame bytes ∧ Environment.rest ⟨[], .free n⟩ = ⟨[], .free (n + 1)⟩)

/-- R40, R113: whatever a free environment chooses, step after step and without end, a machine that meets the invariant
goes on: no request the caller issues and no choice of the transport or of reset stops it, the invariant holds after
every step, and every request held on the port is one that the block serves. -/
def Obligations.FreeEnvironmentNeverStopsTheMachine : Prop :=
  ∀ s : State, s.Inv → s.env.Free → (∀ w ∈ s.port, Servable w) →
    ∀ n : Nat, ∃ t : State, Host.Core.run Sys2Proof.core n s = .next t ∧
      t.Inv ∧ t.env.Free ∧ ∀ w ∈ t.port, Servable w

/-! ## The machine -/

/-- A step runs the decoded instruction: the oldest offered request when the block is free and the environment quiet, or
the response frame the environment sends; around `exec` the step takes the word and the move off and drops the last
response. That a response frame is a move of the environment, run by `exec`, is the model's choice (log entries 4 and
9), and so is the dropped response (log entry 13). -/
def Obligations.StepRunsTheDecodedInstruction : Prop :=
  ∀ (s : State) (i : Instr),
    (∀ (w : Word) (rest : List Word),
      s.env.next = .quiet → s.phase = .idle → s.sequencerOk = true → s.port = w :: rest → decodeRequest w = .ok i →
      step s = exec i { s with env := s.env.rest, port := rest, response := none }) ∧
    (∀ bytes : List Byte, s.env.next = .frame bytes → decode ⟨.response, bytes⟩ = .ok i →
      step s = exec i { s with env := s.env.rest, response := none })

/-- A word placed with withFetchWord is the next thing step runs, in any state. -/
def Obligations.PlacedWordRunsNext : Prop :=
  ∀ (s : State) (nbits w : Nat) (i : Instr), decodeTableWord nbits w = some i →
    step (s.withFetchWord nbits w) = exec i
      (if tableFormat nbits w = .response then { s with response := none }
       else { s with phase := .idle, count := 0, pending := none, response := none })

/-- R23: while a request is outstanding no request has any effect: it is held. That `exec` of a request then answers the
state unchanged is the model's inference (log entry 16), and so is that a DECODE_MEASUREMENT of another subtype is then
held and not refused (log entry 22). -/
def Obligations.BusyBlockHoldsEveryRequest : Prop :=
  ∀ (i : Instr) (s : State), s.pending ≠ none → i.wellFormed = true →
    (∀ pm25 pm10 res6 res7, i ≠ .measurementResponse pm25 pm10 res6 res7) →
    exec i s = .next s

/-- R23, R82: no step taken while a READ_FRAME is outstanding accepts an offered request: all stay on the port in their
order, and only a move of the caller adds to them. -/
def Obligations.OfferedRequestsWaitForResponse : Prop :=
  ∀ s t : State, s.phase ≠ .idle → step s = .next t →
    s.port <+: t.port ∧ (¬ s.env.next.Caller → t.port = s.port)

/-- R38: with no READ_FRAME outstanding and a quiet transport no step takes a byte or writes the frame buffer. -/
def Obligations.IdleBlockTakesNoByte : Prop :=
  ∀ s t : State, s.env.next = .quiet → s.phase = .idle → step s = .next t → t.rx = s.rx ∧ t.buf = s.buf

/-- R114: with nothing held on the port, nothing outstanding and the environment quiet the machine stays as it is. That such a
step is answered with a next state is the model's inference (log entry 1). -/
def Obligations.NoRequestNoStep : Prop :=
  ∀ s : State, s.env.next = .quiet → s.phase = .idle → s.sequencerOk = true → s.port = [] →
    step s = .next { s with env := s.env.rest, response := none }

/-- R104: a step delivers at most one response; one that does clears `pending`, one that does not leaves the caller's
record as it was. -/
def Obligations.AtMostOneResponsePerStep : Prop :=
  ∀ s t : State, step s = .next t →
    (t.response = none ∧ t.delivered = s.delivered) ∨
    ∃ r : Response, t.response = some r ∧ t.delivered = s.delivered ++ [r] ∧ t.pending = none

/-- R66, R93: an instruction is refused only where the spec refuses it, and never faults. -/
def Obligations.RefusedOnlyWhereTheSpecRefuses : Prop :=
  ∀ (i : Instr) (s : State),
    (∀ f : Fault, exec i s ≠ .fault f) ∧
    ∀ r : Refusal, exec i s = .refused r →
      (∃ F : RspFrame, i = .decodeMeasurement F ∧ F[1] ≠ 0xC0 ∧ r = .measurementSubtype) ∨
      (∃ v : Byte, i = .setSleep v ∧ 1 < v.toNat ∧ r = .sleepOperand)

/-- R100, R20: the status codes and the phase encoding. -/
def Obligations.StatusAndPhaseCodes : Prop :=
  Status.ok.code = 0b00 ∧ Status.invalidArgument.code = 0b01 ∧ Status.checksumMismatch.code = 0b10 ∧
  Status.transportError.code = 0b11 ∧
  Phase.idle.code = 0b00 ∧ Phase.hunt.code = 0b01 ∧ Phase.collect.code = 0b10

/-- 10_state.md section 4: the ready signals, and the two frame buses, which have a value exactly while the response
driven has their frame, with its byte `i` at bits `[8i+7:8i]`. -/
def Obligations.PortSignals : Prop :=
  ∀ s : State,
    (s.reqReady = true ↔ s.pending = none) ∧ (s.rxReady = true ↔ s.phase = .hunt ∨ s.phase = .collect) ∧
    (s.respCmdFrame.isSome = true ↔ ∃ (st : Status) (F : CmdFrame), s.response = some ⟨st, .cmdFrame F⟩) ∧
    (s.respRspFrame.isSome = true ↔ ∃ (st : Status) (F : RspFrame), s.response = some ⟨st, .rspFrame F⟩) ∧
    (∀ (st : Status) (F : CmdFrame) (bus : BitVec 152),
      s.response = some ⟨st, .cmdFrame F⟩ → s.respCmdFrame = some bus →
      ∀ (k : Nat) (_ : k < 19), bus.extractLsb' (8 * k) 8 = F[k]) ∧
    (∀ (st : Status) (F : RspFrame) (bus : BitVec 80),
      s.response = some ⟨st, .rspFrame F⟩ → s.respRspFrame = some bus →
      ∀ (k : Nat) (_ : k < 10), bus.extractLsb' (8 * k) 8 = F[k])

/-- R29: the state after reset. `buf` is unspecified there and nothing is said of it. -/
def Obligations.ResetStateValues : Prop :=
  State.reset.phase = .idle ∧ State.reset.phase.code = 0b00 ∧ State.reset.count.val = 0 ∧
  State.reset.pending = none ∧ State.reset.response = none

/-- The reset state meets the invariant. -/
def Obligations.ResetMeetsInvariant : Prop := State.Inv State.reset

/-- Every step keeps the invariant: the sequencer registers fit together (R20, R21, R23), a frame being collected
begins with the start marker (R22), and every response delivered is one R52 and R100 allow. -/
def Obligations.StepKeepsInvariant : Prop :=
  ∀ s t : State, s.Inv → step s = .next t → t.Inv

/-- U7: from a state that meets the invariant no step faults. -/
def Obligations.InvariantStatesNeverFault : Prop :=
  ∀ s : State, s.Inv → ∀ f : Fault, step s ≠ .fault f

/-- R115: a state that meets the invariant with nothing pending is idle with a zero count. -/
def Obligations.NothingPendingMeansIdle : Prop :=
  ∀ s : State, s.Inv → s.pending = none → s.phase = .idle ∧ s.count.val = 0
end

