-- ==== Sys2Proof/Laws/State.lean ====
section
/-! SUPPORT. One lemma per field per state update, true by rfl. -/

namespace Sys2Proof.Machine

/-! ### respond -/

@[simp] theorem respond_phase (st : Status) (res : Result) (s : State) : (respond st res s).phase = s.phase := rfl
@[simp] theorem respond_count (st : Status) (res : Result) (s : State) : (respond st res s).count = s.count := rfl
@[simp] theorem respond_buf (st : Status) (res : Result) (s : State) : (respond st res s).buf = s.buf := rfl
@[simp] theorem respond_pending (st : Status) (res : Result) (s : State) : (respond st res s).pending = none := rfl
@[simp] theorem respond_response (st : Status) (res : Result) (s : State) : (respond st res s).response = some ⟨st, res⟩ := rfl
@[simp] theorem respond_port (st : Status) (res : Result) (s : State) : (respond st res s).port = s.port := rfl
@[simp] theorem respond_rx (st : Status) (res : Result) (s : State) : (respond st res s).rx = s.rx := rfl
@[simp] theorem respond_delivered (st : Status) (res : Result) (s : State) : (respond st res s).delivered = s.delivered ++ [⟨st, res⟩] := rfl
@[simp] theorem respond_env (st : Status) (res : Result) (s : State) : (respond st res s).env = s.env := rfl
@[simp] theorem respond_draws (st : Status) (res : Result) (s : State) : (respond st res s).draws = s.draws := rfl

/-! ### arrive -/

@[simp] theorem arrive_phase (items : List RxItem) (s : State) : (arrive items s).phase = s.phase := rfl
@[simp] theorem arrive_count (items : List RxItem) (s : State) : (arrive items s).count = s.count := rfl
@[simp] theorem arrive_buf (items : List RxItem) (s : State) : (arrive items s).buf = s.buf := rfl
@[simp] theorem arrive_pending (items : List RxItem) (s : State) : (arrive items s).pending = s.pending := rfl
@[simp] theorem arrive_response (items : List RxItem) (s : State) : (arrive items s).response = s.response := rfl
@[simp] theorem arrive_port (items : List RxItem) (s : State) : (arrive items s).port = s.port := rfl
@[simp] theorem arrive_rx (items : List RxItem) (s : State) : (arrive items s).rx = s.rx ++ items := rfl
@[simp] theorem arrive_delivered (items : List RxItem) (s : State) : (arrive items s).delivered = s.delivered := rfl
@[simp] theorem arrive_env (items : List RxItem) (s : State) : (arrive items s).env = s.env := rfl
@[simp] theorem arrive_draws (items : List RxItem) (s : State) : (arrive items s).draws = s.draws := rfl

/-! ### flushInput -/

@[simp] theorem flushInput_phase (s : State) : (flushInput s).phase = s.phase := rfl
@[simp] theorem flushInput_count (s : State) : (flushInput s).count = s.count := rfl
@[simp] theorem flushInput_buf (s : State) : (flushInput s).buf = s.buf := rfl
@[simp] theorem flushInput_pending (s : State) : (flushInput s).pending = s.pending := rfl
@[simp] theorem flushInput_response (s : State) : (flushInput s).response = s.response := rfl
@[simp] theorem flushInput_port (s : State) : (flushInput s).port = s.port := rfl
@[simp] theorem flushInput_rx (s : State) : (flushInput s).rx = s.rx.filter (· = .err) := rfl
@[simp] theorem flushInput_delivered (s : State) : (flushInput s).delivered = s.delivered := rfl
@[simp] theorem flushInput_env (s : State) : (flushInput s).env = s.env := rfl
@[simp] theorem flushInput_draws (s : State) : (flushInput s).draws = s.draws := rfl

/-! ### blockReset -/

@[simp] theorem blockReset_phase (s : State) : (blockReset s).phase = .idle := rfl
@[simp] theorem blockReset_count (s : State) : (blockReset s).count = 0 := rfl
@[simp] theorem blockReset_buf (s : State) : (blockReset s).buf = Config.bufAfterReset s.draws := rfl
@[simp] theorem blockReset_pending (s : State) : (blockReset s).pending = none := rfl
@[simp] theorem blockReset_response (s : State) : (blockReset s).response = none := rfl
@[simp] theorem blockReset_port (s : State) : (blockReset s).port = s.port := rfl
@[simp] theorem blockReset_rx (s : State) : (blockReset s).rx = s.rx := rfl
@[simp] theorem blockReset_delivered (s : State) : (blockReset s).delivered = s.delivered := rfl
@[simp] theorem blockReset_env (s : State) : (blockReset s).env = s.env := rfl
@[simp] theorem blockReset_draws (s : State) : (blockReset s).draws = s.draws + 1 := rfl

/-! ### beginStep -/

@[simp] theorem beginStep_phase (s : State) : (beginStep s).phase = s.phase := rfl
@[simp] theorem beginStep_count (s : State) : (beginStep s).count = s.count := rfl
@[simp] theorem beginStep_buf (s : State) : (beginStep s).buf = s.buf := rfl
@[simp] theorem beginStep_pending (s : State) : (beginStep s).pending = s.pending := rfl
@[simp] theorem beginStep_response (s : State) : (beginStep s).response = none := rfl
@[simp] theorem beginStep_port (s : State) : (beginStep s).port = s.port := rfl
@[simp] theorem beginStep_rx (s : State) : (beginStep s).rx = s.rx := rfl
@[simp] theorem beginStep_delivered (s : State) : (beginStep s).delivered = s.delivered := rfl
@[simp] theorem beginStep_env (s : State) : (beginStep s).env = s.env := rfl
@[simp] theorem beginStep_draws (s : State) : (beginStep s).draws = s.draws := rfl

/-! ### answered -/

@[simp] theorem State.answered_phase (st : Status) (res : Result) (s : State) : (s.answered st res).phase = s.phase := rfl
@[simp] theorem State.answered_count (st : Status) (res : Result) (s : State) : (s.answered st res).count = s.count := rfl
@[simp] theorem State.answered_buf (st : Status) (res : Result) (s : State) : (s.answered st res).buf = s.buf := rfl
@[simp] theorem State.answered_pending (st : Status) (res : Result) (s : State) : (s.answered st res).pending = s.pending := rfl
@[simp] theorem State.answered_response (st : Status) (res : Result) (s : State) : (s.answered st res).response = some ⟨st, res⟩ := rfl
@[simp] theorem State.answered_port (st : Status) (res : Result) (s : State) : (s.answered st res).port = s.port := rfl
@[simp] theorem State.answered_rx (st : Status) (res : Result) (s : State) : (s.answered st res).rx = s.rx := rfl
@[simp] theorem State.answered_delivered (st : Status) (res : Result) (s : State) : (s.answered st res).delivered = s.delivered ++ [⟨st, res⟩] := rfl
@[simp] theorem State.answered_env (st : Status) (res : Result) (s : State) : (s.answered st res).env = s.env := rfl
@[simp] theorem State.answered_draws (st : Status) (res : Result) (s : State) : (s.answered st res).draws = s.draws := rfl

/-! ### failRead -/

@[simp] theorem failRead_phase (s : State) : (failRead s).phase = .idle := rfl
@[simp] theorem failRead_count (s : State) : (failRead s).count = 0 := rfl
@[simp] theorem failRead_buf (s : State) : (failRead s).buf = s.buf := rfl
@[simp] theorem failRead_pending (s : State) : (failRead s).pending = none := rfl
@[simp] theorem failRead_response (s : State) : (failRead s).response = some ⟨.transportError, .none⟩ := rfl
@[simp] theorem failRead_port (s : State) : (failRead s).port = s.port := rfl
@[simp] theorem failRead_rx (s : State) : (failRead s).rx = s.rx := rfl
@[simp] theorem failRead_delivered (s : State) : (failRead s).delivered = s.delivered ++ [⟨.transportError, .none⟩] := rfl
@[simp] theorem failRead_env (s : State) : (failRead s).env = s.env := rfl
@[simp] theorem failRead_draws (s : State) : (failRead s).draws = s.draws := rfl

/-! ### completeRead -/

@[simp] theorem completeRead_phase (s : State) : (completeRead s).phase = .idle := rfl
@[simp] theorem completeRead_count (s : State) : (completeRead s).count = 0 := rfl
@[simp] theorem completeRead_buf (s : State) : (completeRead s).buf = s.buf := rfl
@[simp] theorem completeRead_pending (s : State) : (completeRead s).pending = none := rfl
@[simp] theorem completeRead_response (s : State) : (completeRead s).response = some ⟨.ok, .rspFrame s.buf⟩ := rfl
@[simp] theorem completeRead_port (s : State) : (completeRead s).port = s.port := rfl
@[simp] theorem completeRead_rx (s : State) : (completeRead s).rx = s.rx := rfl
@[simp] theorem completeRead_delivered (s : State) : (completeRead s).delivered = s.delivered ++ [⟨.ok, .rspFrame s.buf⟩] := rfl
@[simp] theorem completeRead_env (s : State) : (completeRead s).env = s.env := rfl
@[simp] theorem completeRead_draws (s : State) : (completeRead s).draws = s.draws := rfl

/-! ### failNext -/

@[simp] theorem failNext_phase (s : State) : (failNext s).phase = s.phase := rfl
@[simp] theorem failNext_count (s : State) : (failNext s).count = s.count := rfl
@[simp] theorem failNext_buf (s : State) : (failNext s).buf = s.buf := rfl
@[simp] theorem failNext_pending (s : State) : (failNext s).pending = s.pending := rfl
@[simp] theorem failNext_response (s : State) : (failNext s).response = s.response := rfl
@[simp] theorem failNext_port (s : State) : (failNext s).port = s.port := rfl
@[simp] theorem failNext_rx (s : State) : (failNext s).rx = .err :: s.rx := rfl
@[simp] theorem failNext_delivered (s : State) : (failNext s).delivered = s.delivered := rfl
@[simp] theorem failNext_env (s : State) : (failNext s).env = s.env := rfl
@[simp] theorem failNext_draws (s : State) : (failNext s).draws = s.draws := rfl

/-! ### offerRequest -/

@[simp] theorem offerRequest_phase (w : Word) (s : State) : (offerRequest w s).phase = s.phase := rfl
@[simp] theorem offerRequest_count (w : Word) (s : State) : (offerRequest w s).count = s.count := rfl
@[simp] theorem offerRequest_buf (w : Word) (s : State) : (offerRequest w s).buf = s.buf := rfl
@[simp] theorem offerRequest_pending (w : Word) (s : State) : (offerRequest w s).pending = s.pending := rfl
@[simp] theorem offerRequest_response (w : Word) (s : State) : (offerRequest w s).response = s.response := rfl
@[simp] theorem offerRequest_port (w : Word) (s : State) : (offerRequest w s).port = s.port ++ [w] := rfl
@[simp] theorem offerRequest_rx (w : Word) (s : State) : (offerRequest w s).rx = s.rx := rfl
@[simp] theorem offerRequest_delivered (w : Word) (s : State) : (offerRequest w s).delivered = s.delivered := rfl
@[simp] theorem offerRequest_env (w : Word) (s : State) : (offerRequest w s).env = s.env := rfl
@[simp] theorem offerRequest_draws (w : Word) (s : State) : (offerRequest w s).draws = s.draws := rfl

end Sys2Proof.Machine
end

