-- ==== Sys2Proof/Laws/Ops.lean ====
section
/-! SUPPORT. For each shared operation, what it can do, said once. -/

namespace Sys2Proof.Machine

/-! ### Accepting and serving a request -/

theorem accept_free {r : Request} {s : State} (h : s.pending = none) :
    accept r s = some { s with pending := some r } := by
  simp [accept, h]

theorem accept_busy {r : Request} {s : State} (h : s.pending ≠ none) : accept r s = none := by
  cases hp : s.pending with
  | none => exact absurd hp h
  | some q => simp [accept, hp]

theorem serve_free {r : Request} {m : State → StepOutcome} {s : State} (h : s.pending = none) :
    serve r m s = m { s with pending := some r } := by
  simp [serve, accept_free h]

theorem serve_busy {r : Request} {m : State → StepOutcome} {s : State} (h : s.pending ≠ none) :
    serve r m s = .next s := by
  simp [serve, accept_busy h]

/-- Everything `serve` can do: hold the request, or run its meaning on the state that accepted it. -/
theorem serve_cases (r : Request) (m : State → StepOutcome) (s : State) :
    (s.pending ≠ none ∧ serve r m s = .next s) ∨
    (s.pending = none ∧ serve r m s = m { s with pending := some r }) := by
  by_cases h : s.pending = none
  · exact .inr ⟨h, serve_free h⟩
  · exact .inl ⟨h, serve_busy h⟩

/-- Accepting a request and answering it in the same step leaves only the response behind. -/
theorem respond_accepted {r : Request} {st : Status} {res : Result} {s : State} (h : s.pending = none) :
    respond st res { s with pending := some r } = s.answered st res := by
  cases s; simp_all [respond, State.answered]

/-! ### Errors -/

@[simp] theorem raise_invalidArgument (res : Result) (s : State) :
    raise .invalidArgument res s = respond .invalidArgument res s := rfl

@[simp] theorem raise_checksumMismatch (res : Result) (s : State) :
    raise .checksumMismatch res s = respond .checksumMismatch res s := rfl

/-! ### ENCODE -/

/-- The padded payload byte by byte (R53). -/
theorem padPayload_getElem (p : List Byte) (k : Nat) (hk : k < 12) : (padPayload p)[k] = p.getD k 0 := by
  simp [padPayload]

theorem padPayload_toList (p : List Byte) : (padPayload p).toList =
    [p.getD 0 0, p.getD 1 0, p.getD 2 0, p.getD 3 0, p.getD 4 0, p.getD 5 0, p.getD 6 0, p.getD 7 0, p.getD 8 0,
      p.getD 9 0, p.getD 10 0, p.getD 11 0] := rfl

theorem payload_toList (q : Payload) : q.toList =
    [q[0], q[1], q[2], q[3], q[4], q[5], q[6], q[7], q[8], q[9], q[10], q[11]] := by
  apply List.ext_getElem
  · simp
  · intro k h1 h2
    simp only [Vector.length_toList] at h1
    interval_cases k <;> rfl

/-- The layout of a command frame (R45). -/
theorem cmdFrameOf_toList (cmd : Byte) (q : Payload) :
    (cmdFrameOf cmd q).toList = 0xAA :: 0xB4 :: cmd :: (q.toList ++ [0xFF, 0xFF, cmdChecksum cmd q, 0xAB]) := by
  rw [payload_toList q]; rfl

/-- The payload bytes of a command frame (R45). -/
theorem cmdFrameOf_payload (cmd : Byte) (q : Payload) (k : Nat) (hk : k < 12) : (cmdFrameOf cmd q)[3 + k] = q[k] := by
  interval_cases k <;> rfl

theorem encodeCommand_ok {cmd : Byte} {p : List Byte} (h : p.length ≤ 12) :
    encodeCommand cmd p = .ok (cmdFrameOf cmd (padPayload p)) := by
  simp [encodeCommand, Nat.not_lt.mpr h]

theorem encodeCommand_error {cmd : Byte} {p : List Byte} (h : 12 < p.length) :
    encodeCommand cmd p = .error (.invalidArgument p.length) := by
  simp [encodeCommand, h]

/-- ENCODE's answer is a frame or INVALID_ARGUMENT, by the payload's length alone. -/
theorem answerEncode_eq (cmd : Byte) (p : List Byte) (s : State) :
    answerEncode cmd p s = .next (if p.length ≤ 12 then respond .ok (.cmdFrame (cmdFrameOf cmd (padPayload p))) s
      else respond .invalidArgument .none s) := by
  by_cases h : p.length ≤ 12
  · simp [answerEncode, encodeCommand_ok h, h]
  · simp [answerEncode, encodeCommand_error (Nat.lt_of_not_le h), h]

theorem payloadOperand_length (len : Nat) (payload : Payload) : (payloadOperand len payload).length = len := by
  simp only [payloadOperand, Config.payloadMax, List.length_take, List.length_append, Vector.length_toList, List.length_replicate]
  omega

theorem serveCommand_free {cmd : Byte} {p : List Byte} {s : State} (h : s.pending = none) (hp : p.length ≤ 12) :
    serveCommand cmd p s = .next (s.answered .ok (.cmdFrame (cmdFrameOf cmd (padPayload p)))) := by
  simp [serveCommand, serve_free h, answerEncode_eq, hp, respond_accepted h]

/-! ### DECODE -/

/-- A DECODE_* answer carries its fields under the status of the frame. -/
theorem answerDecode_eq (F : RspFrame) (fields : Result) (s : State) :
    answerDecode F fields s = respond (decodeStatus F) fields s := by
  unfold answerDecode decodeStatus
  by_cases h : validFrame F <;> simp [h]

/-! ### RxTake -/

theorem rxTake_nil {s : State} (h : s.rx = []) : rxTake s = (.nothing, s) := by
  simp [rxTake, h]

theorem rxTake_byte {s : State} {b : Byte} {rest : List RxItem} (h : s.rx = .byte b :: rest) :
    rxTake s = (.byte b, { s with rx := rest }) := by
  simp [rxTake, h]

theorem rxTake_err {s : State} {rest : List RxItem} (h : s.rx = .err :: rest) :
    rxTake s = (.err, { s with rx := rest.drop (Config.errorDraw s.draws), draws := s.draws + 1 }) := by
  simp [rxTake, h]

/-- Everything a byte step can do: wait, take a byte, or end with the transport's error. -/
theorem byteStep_cases (f : Byte → State → State) (s : State) :
    (s.rx = [] ∧ byteStep f s = s) ∨
    (∃ b rest, s.rx = .byte b :: rest ∧ byteStep f s = f b { s with rx := rest }) ∨
    (∃ rest, s.rx = .err :: rest ∧
      byteStep f s = failRead { s with rx := rest.drop (Config.errorDraw s.draws), draws := s.draws + 1 }) := by
  cases h : s.rx with
  | nil => exact .inl ⟨rfl, by simp [byteStep, rxTake_nil h]⟩
  | cons x rest =>
    cases x with
    | byte b => exact .inr (.inl ⟨b, rest, rfl, by simp [byteStep, rxTake_byte h]⟩)
    | err => exact .inr (.inr ⟨rest, rfl, by simp [byteStep, rxTake_err h]⟩)

/-! ### The environment -/

@[simp] theorem Environment.next_cons (m : EnvMove) (l : List EnvMove) (tail : EnvTail) :
    Environment.next ⟨m :: l, tail⟩ = m := rfl
@[simp] theorem Environment.rest_cons (m : EnvMove) (l : List EnvMove) (tail : EnvTail) :
    Environment.rest ⟨m :: l, tail⟩ = ⟨l, tail⟩ := rfl
@[simp] theorem Environment.next_nothing : Environment.next ⟨[], .repeating []⟩ = .quiet := rfl
@[simp] theorem Environment.rest_nothing : Environment.rest ⟨[], .repeating []⟩ = ⟨[], .repeating []⟩ := rfl
@[simp] theorem Environment.next_repeating (m : EnvMove) (l : List EnvMove) :
    Environment.next ⟨[], .repeating (m :: l)⟩ = m := rfl
@[simp] theorem Environment.rest_repeating (m : EnvMove) (l : List EnvMove) :
    Environment.rest ⟨[], .repeating (m :: l)⟩ = ⟨l, .repeating (m :: l)⟩ := rfl
@[simp] theorem Environment.next_free (n : Nat) : Environment.next ⟨[], .free n⟩ = freeMove n := rfl
@[simp] theorem Environment.rest_free (n : Nat) : Environment.rest ⟨[], .free n⟩ = ⟨[], .free (n + 1)⟩ := rfl
@[simp] theorem Environment.next_withMove (m : EnvMove) (e : Environment) : (e.withMove m).next = m := rfl
@[simp] theorem Environment.rest_withMove (m : EnvMove) (e : Environment) : (e.withMove m).rest = e := rfl

/-- A free choice is never a response word. -/
theorem freeMove_ne_frame (n : Nat) (bytes : List Byte) : freeMove n ≠ .frame bytes := by
  unfold freeMove
  cases Config.envChoice n with
  | request op cmd len payload frame =>
    simp only [requestMove]
    split <;> simp
  | _ => simp

@[simp] theorem lastFrame_append (rs : List Response) (st : Status) (F : RspFrame) :
    lastFrame (rs ++ [⟨st, .rspFrame F⟩]) = some F := by
  simp [lastFrame, returnedFrame]

/-- Everything `passBack` can do: nothing, or offer a DECODE_* of the last frame, of subtype `0xC0` for
DECODE_MEASUREMENT. -/
theorem passBack_cases (p : Config.Parser) (s : State) :
    passBack p s = s ∨
    (∃ F : RspFrame, lastFrame s.delivered = some F ∧ p = .measurement ∧ F[1] = 0xC0 ∧
      passBack p s = offerRequest (encode (.decodeMeasurement F)) s) ∨
    (∃ F : RspFrame, lastFrame s.delivered = some F ∧ p = .firmware ∧
      passBack p s = offerRequest (encode (.decodeFirmware F)) s) := by
  unfold passBack
  cases h : lastFrame s.delivered with
  | none => exact .inl rfl
  | some F =>
    cases p with
    | measurement =>
      by_cases hF : F[1] = 0xC0
      · exact .inr (.inl ⟨F, rfl, rfl, hF, if_pos hF⟩)
      · exact .inl (if_neg hF)
    | firmware => exact .inr (.inr ⟨F, rfl, rfl, rfl⟩)

/-- A quiet environment makes a quiet move, stays quiet, and has one listed move less. -/
theorem Environment.Quiet_step {e : Environment} (h : e.Quiet) :
    e.next = .quiet ∧ e.rest = ⟨e.moves.drop 1, e.tail⟩ ∧ e.rest.Quiet := by
  obtain ⟨moves, tail⟩ := e
  obtain ⟨hm, rfl⟩ := h
  cases moves with
  | nil => exact ⟨rfl, rfl, hm, rfl⟩
  | cons m l => exact ⟨hm m (by simp), rfl, fun x hx => hm x (List.mem_cons_of_mem _ hx), rfl⟩

/-- A noisy environment makes a noise move and stays noisy. -/
theorem Environment.Noisy_step {e : Environment} (h : e.Noisy) : e.next.Noise ∧ e.rest.Noisy := by
  obtain ⟨moves, tail⟩ := e
  obtain ⟨hm, loop, rfl, hl⟩ := h
  cases moves with
  | nil =>
    cases loop with
    | nil => exact ⟨.inl rfl, hm, [], rfl, hl⟩
    | cons m l => exact ⟨hl m (by simp), fun x hx => hl x (List.mem_cons_of_mem _ hx), _, rfl, hl⟩
  | cons m l => exact ⟨hm m (by simp), fun x hx => hm x (List.mem_cons_of_mem _ hx), _, rfl, hl⟩

/-! ### The sequencer -/

theorem sequencerOk_idle {s : State} (h : s.phase = .idle) :
    s.sequencerOk = true ↔ s.pending = none ∧ s.count = 0 := by
  simp [State.sequencerOk, h]

theorem sequencerOk_hunt {s : State} (h : s.phase = .hunt) :
    s.sequencerOk = true ↔ s.pending = some .readFrame ∧ s.count = 0 := by
  simp [State.sequencerOk, h]

theorem sequencerOk_collect {s : State} (h : s.phase = .collect) :
    s.sequencerOk = true ↔ s.pending = some .readFrame ∧ 1 ≤ s.count.val ∧ s.count.val ≤ 9 := by
  simp [State.sequencerOk, h]

/-! ### Steps of the block -/

/-- A step is the environment's next move, made on the state without that move and without the last response. -/
theorem step_eq (s : State) : step s = moveStep s.env.next { s with env := s.env.rest, response := none } := rfl

theorem step_of_quiet {s : State} (h : s.env.next = .quiet) :
    step s = blockStep { s with env := s.env.rest, response := none } := by
  rw [step_eq, h]; rfl

/-! What each move does, given to `moveStep`. -/

@[simp] theorem moveStep_quiet (s : State) : moveStep .quiet s = blockStep s := rfl
@[simp] theorem moveStep_offer (w : Word) (s : State) : moveStep (.offer w) s = .next (offerRequest w s) := rfl
@[simp] theorem moveStep_passBack (p : Config.Parser) (s : State) :
    moveStep (.passBack p) s = .next (passBack p s) := rfl
@[simp] theorem moveStep_errorNow (s : State) : moveStep .errorNow s = .next (failNext s) := rfl
@[simp] theorem moveStep_byte (b : Byte) (s : State) : moveStep (.byte b) s = .next (arrive [.byte b] s) := rfl
@[simp] theorem moveStep_error (s : State) : moveStep .error s = .next (arrive [.err] s) := rfl
@[simp] theorem moveStep_frame (bytes : List Byte) (s : State) :
    moveStep (.frame bytes) s = runDecoded (decode ⟨.response, bytes⟩) s := rfl
@[simp] theorem moveStep_flush (s : State) : moveStep .flush s = .next (flushInput s) := rfl
@[simp] theorem moveStep_reset (s : State) : moveStep .reset s = .next (blockReset s) := rfl

/-- A caller's move adds to the request port and changes nothing else. -/
theorem moveStep_caller {m : EnvMove} (h : m.Caller) (s : State) :
    ∃ offered : List Word, moveStep m s = .next { s with port := s.port ++ offered } := by
  rcases h with ⟨w, rfl⟩ | ⟨p, rfl⟩
  · exact ⟨[w], rfl⟩
  · rcases passBack_cases p s with h | ⟨F, -, -, -, h⟩ | ⟨F, -, -, h⟩
    · exact ⟨[], by rw [moveStep_passBack, h]; simp⟩
    · exact ⟨_, by rw [moveStep_passBack, h]; rfl⟩
    · exact ⟨_, by rw [moveStep_passBack, h]; rfl⟩

/-- A response word decodes to a MEASUREMENT_RESPONSE only. -/
theorem decode_response {bytes : List Byte} {i : Instr} (h : decode ⟨.response, bytes⟩ = .ok i) :
    ∃ (pm25 pm10 : Half) (res6 res7 : Byte), i = .measurementResponse pm25 pm10 res6 res7 := by
  simp only [decode, decodeResponse] at h
  split at h
  · split at h <;> cases h
    exact ⟨_, _, _, _, rfl⟩
  · cases h

/-- Everything a step can do: the block's own step, requests offered by the caller, a change of the stream alone, a
reset, or the refusal of a word the device sent that is no response word. -/
theorem step_cases (s : State) :
    (s.env.next = .quiet ∧ step s = blockStep { s with env := s.env.rest, response := none }) ∨
    (s.env.next.Caller ∧
      ∃ offered, step s = .next { s with env := s.env.rest, response := none, port := s.port ++ offered }) ∨
    (¬ s.env.next.Caller ∧ ∃ rx', step s = .next { s with env := s.env.rest, response := none, rx := rx' }) ∨
    (s.env.next = .reset ∧ step s = .next (blockReset { s with env := s.env.rest, response := none })) ∨
    (∃ bytes why, s.env.next = .frame bytes ∧ step s = .refused (.undecodable why)) := by
  rw [step_eq]
  cases h : s.env.next with
  | quiet => exact .inl ⟨rfl, rfl⟩
  | offer w => exact .inr (.inl ⟨.inl ⟨w, rfl⟩, moveStep_caller (.inl ⟨w, rfl⟩) _⟩)
  | passBack p => exact .inr (.inl ⟨.inr ⟨p, rfl⟩, moveStep_caller (.inr ⟨p, rfl⟩) _⟩)
  | byte b => exact .inr (.inr (.inl ⟨by simp [EnvMove.Caller], _, rfl⟩))
  | error => exact .inr (.inr (.inl ⟨by simp [EnvMove.Caller], _, rfl⟩))
  | errorNow => exact .inr (.inr (.inl ⟨by simp [EnvMove.Caller], _, rfl⟩))
  | flush => exact .inr (.inr (.inl ⟨by simp [EnvMove.Caller], _, rfl⟩))
  | reset => exact .inr (.inr (.inr (.inl ⟨rfl, rfl⟩)))
  | frame bytes =>
    rw [moveStep_frame]
    cases hd : decode ⟨.response, bytes⟩ with
    | error why => exact .inr (.inr (.inr (.inr ⟨bytes, why, rfl, rfl⟩)))
    | ok i =>
      obtain ⟨_, _, _, _, rfl⟩ := decode_response hd
      exact .inr (.inr (.inl ⟨by simp [EnvMove.Caller], _, rfl⟩))

theorem blockStep_idle {s : State} (h : s.phase = .idle) (hok : s.sequencerOk = true) : blockStep s = fetch s := by
  simp [blockStep, h, hok]

theorem blockStep_hunt {s : State} (h : s.phase = .hunt) (hok : s.sequencerOk = true) :
    blockStep s = .next (byteStep huntByte s) := by
  simp [blockStep, h, hok]

theorem blockStep_collect {s : State} (h : s.phase = .collect) (hok : s.sequencerOk = true) :
    blockStep s = .next (byteStep collectByte s) := by
  simp [blockStep, h, hok]

@[simp] theorem beginStep_sequencerOk (s : State) : (beginStep s).sequencerOk = s.sequencerOk := rfl

end Sys2Proof.Machine
end

