-- ==== Sys2Proof/Laws/PerInstr.lean ====
section
/-! SUPPORT. Families of lemmas with one lemma per constructor of Instr. -/

namespace Sys2Proof.Laws

/-- The encoder writes a word of its format's length. -/
def WordLength.Statement (i : Instr) : Prop := (encode i).bytes.length = (encode i).format.wordLength

theorem operationWord_length (op : Op) (cmd len : Byte) (payload : Payload) (frame : RspFrame) :
    (operationWord op cmd len payload frame).bytes.length = 25 := by
  simp [operationWord]

theorem WordLength.encode (cmd : Byte) (len : Nat) (payload : Payload) : Statement (.encode cmd len payload) :=
  operationWord_length ..

theorem WordLength.readFrame : Statement .readFrame := operationWord_length ..

theorem WordLength.decodeMeasurement (frame : RspFrame) : Statement (.decodeMeasurement frame) :=
  operationWord_length ..

theorem WordLength.decodeFirmware (frame : RspFrame) : Statement (.decodeFirmware frame) :=
  operationWord_length ..

theorem WordLength.setMode (m : Byte) : Statement (.setMode m) := rfl

theorem WordLength.queryData : Statement .queryData := rfl

theorem WordLength.setDeviceId (id : Half) : Statement (.setDeviceId id) := rfl

theorem WordLength.setSleep (s : Byte) : Statement (.setSleep s) := rfl

theorem WordLength.queryFirmware : Statement .queryFirmware := rfl

theorem WordLength.setWorkingPeriod (t : Byte) : Statement (.setWorkingPeriod t) := rfl

theorem WordLength.measurementResponse (pm25 pm10 : Half) (res6 res7 : Byte) :
    Statement (.measurementResponse pm25 pm10 res6 res7) := rfl

end Sys2Proof.Laws
end

