-- ==== Sys2Proof/Laws/Resync.lean ====
section
/-! SUPPORT. What one byte does to the resynchroniser. -/

namespace Sys2Proof.Machine

@[simp] theorem huntByte_start (s : State) :
    huntByte 0xAA s = { s with buf := s.buf.setIfInBounds 0 0xAA, count := 1, phase := .collect } := rfl

theorem huntByte_other {b : Byte} (h : b ≠ 0xAA) (s : State) : huntByte b s = s := if_neg h

theorem collectByte_store {b : Byte} {s : State} (h : s.count.val + 1 < 10) :
    collectByte b s =
      { s with buf := s.buf.setIfInBounds s.count.val b, count := ⟨s.count.val + 1, by omega⟩ } := dif_pos h

theorem collectByte_complete {b : Byte} {s : State} (h : ¬ s.count.val + 1 < 10) :
    collectByte b s = completeRead { s with buf := s.buf.setIfInBounds s.count.val b } := dif_neg h

/-- While a READ_FRAME is outstanding its request is pending (R23). -/
theorem Reading_pending {s : State} (h : s.Reading) : s.pending = some .readFrame := by
  rcases hp : s.phase with _ | _ | _
  · exact absurd hp h.2.2
  · exact ((sequencerOk_hunt hp).1 h.2.1).1
  · exact ((sequencerOk_collect hp).1 h.2.1).1

theorem step_hunt {s : State} (h : s.Reading) (hp : s.phase = .hunt) :
    step s = .next (byteStep huntByte { s with env := s.env.rest, response := none }) := by
  exact (step_of_quiet h.1).trans (blockStep_hunt (s := { s with env := s.env.rest, response := none }) hp h.2.1)

theorem step_collect {s : State} (h : s.Reading) (hp : s.phase = .collect) :
    step s = .next (byteStep collectByte { s with env := s.env.rest, response := none }) := by
  exact (step_of_quiet h.1).trans (blockStep_collect (s := { s with env := s.env.rest, response := none }) hp h.2.1)

end Sys2Proof.Machine
end

