-- ==== Sys2Proof/Tests/Slice0.lean ====
section
/-! SUPPORT. The session's own tests. Expected values are the worked examples of the rules and the vectors of 95_test_vectors.md; the words are written out from 30_encoding.md in the packing of log entries 2 to 4. -/

namespace Sys2Proof.Machine

/-! ## Helpers: small states, and a look at one field of a next state -/

def idleState (port : List Word) (rx : List RxItem) (env : List EnvMove) : State :=
  { State.reset with port := port, rx := rx, env := ⟨env, .repeating []⟩ }

def huntState (rx : List RxItem) : State :=
  { State.reset with phase := .hunt, pending := some .readFrame, rx := rx, env := ⟨[], .repeating []⟩ }

def collectState (count : Fin 11) (rx : List RxItem) : State :=
  { State.reset with
    phase := .collect, pending := some .readFrame, count := count, rx := rx, env := ⟨[], .repeating []⟩
    buf := #v[0xAA, 0xC0, 0x64, 0x00, 0xC8, 0x00, 0x00, 0x00, 0x2C, 0x00] }

/-- The last response an outcome delivered. -/
def lastResponse (o : StepOutcome) : Option Response :=
  match o with
  | .next s => s.delivered.getLast?
  | .fault _ => none
  | .refused _ => none

/-- A field of the next state. -/
def nextField {α : Type} (o : StepOutcome) (f : State → α) : Option α :=
  match o with
  | .next s => some (f s)
  | .fault _ => none
  | .refused _ => none

/-- Why an outcome is refused. -/
def refusalOf (o : StepOutcome) : Option Refusal :=
  match o with
  | .next _ => none
  | .fault _ => none
  | .refused r => some r

/-! ## Well-formedness: one ill-formed term for each check -/

theorem test_encode_length_over_plenW_is_ill_formed :
    (Instr.encode 0x04 256 (Vector.replicate 12 0)).wellFormed = false := by decide

theorem test_encode_length_255_is_well_formed :
    (Instr.encode 0x04 255 (Vector.replicate 12 0)).wellFormed = true := by decide

theorem test_setSleep_2_is_ill_formed : (Instr.setSleep 2).wellFormed = false := by decide

/-! ## Decode: one word for each constructor, and the rejections by name -/

theorem test_decode_encode : decode ⟨.operation,
    [0x00, 0x02, 2, 0x01, 0x01, 0, 0, 0, 0, 0, 0, 0, 0, 0, 0, 0, 0, 0, 0, 0, 0, 0, 0, 0, 0]⟩
      = .ok (.encode 0x02 2 #v[1, 1, 0, 0, 0, 0, 0, 0, 0, 0, 0, 0]) := by decide

theorem test_decode_readFrame : decode ⟨.operation,
    [0x01, 9, 9, 9, 9, 9, 9, 9, 9, 9, 9, 9, 9, 9, 9, 9, 9, 9, 9, 9, 9, 9, 9, 9, 9]⟩ = .ok .readFrame := by decide

theorem test_decode_decodeMeasurement : decode ⟨.operation,
    [0x02, 0, 0, 0, 0, 0, 0, 0, 0, 0, 0, 0, 0, 0, 0, 0xAA, 0xC0, 0x34, 0x12, 0x78, 0x56, 0xAB, 0xCD, 0x8C, 0xAB]⟩
      = .ok (.decodeMeasurement #v[0xAA, 0xC0, 0x34, 0x12, 0x78, 0x56, 0xAB, 0xCD, 0x8C, 0xAB]) := by decide

theorem test_decode_decodeFirmware : decode ⟨.operation,
    [0x03, 0, 0, 0, 0, 0, 0, 0, 0, 0, 0, 0, 0, 0, 0, 0xAA, 0x00, 0x00, 0x18, 0x03, 0x0F, 0x34, 0x12, 0x70, 0xAB]⟩
      = .ok (.decodeFirmware #v[0xAA, 0x00, 0x00, 0x18, 0x03, 0x0F, 0x34, 0x12, 0x70, 0xAB]) := by decide

theorem test_decode_setMode : decode ⟨.logical, [0x02, 0xFF, 0x00]⟩ = .ok (.setMode 0xFF) := by decide

theorem test_decode_queryData : decode ⟨.logical, [0x04, 0x00, 0x00]⟩ = .ok .queryData := by decide

theorem test_decode_setDeviceId : decode ⟨.logical, [0x05, 0x34, 0x12]⟩ = .ok (.setDeviceId 0x1234) := by decide

theorem test_decode_setSleep : decode ⟨.logical, [0x06, 0x01, 0x00]⟩ = .ok (.setSleep 1) := by decide

theorem test_decode_queryFirmware : decode ⟨.logical, [0x07, 0x00, 0x00]⟩ = .ok .queryFirmware := by decide

theorem test_decode_setWorkingPeriod : decode ⟨.logical, [0x08, 0x1E, 0x00]⟩ = .ok (.setWorkingPeriod 30) := by decide

theorem test_decode_measurementResponse : decode ⟨.response, [0xC0, 0x34, 0x12, 0x78, 0x56, 0xAB, 0xCD]⟩
    = .ok (.measurementResponse 0x1234 0x5678 0xAB 0xCD) := by decide

theorem test_decode_rejects_sleep_operand :
    decode ⟨.logical, [0x06, 0x02, 0x00]⟩ = .error (.operandOutOfRange 0x06 0x02 0x00) := by decide

theorem test_decode_rejects_unnamed_command :
    decode ⟨.logical, [0x03, 0x00, 0x00]⟩ = .error (.unnamedCommand 0x03) := by decide

theorem test_decode_rejects_unnamed_subtype :
    decode ⟨.response, [0xC5, 0, 0, 0, 0, 0, 0]⟩ = .error (.unnamedSubtype 0xC5) := by decide

theorem test_decode_rejects_short_word : decode ⟨.operation, [0x00, 0x02]⟩ = .error (.wrongLength 2) := by decide

theorem test_request_port_rejects_response :
    decodeRequest ⟨.response, [0xC0, 0, 0, 0, 0, 0, 0]⟩ = .error .notARequest := by decide

/-- The table's eleven words: with eight bits given the word 0x02 is SET_MODE's (log entry 5). -/
theorem test_table_words :
    [0x00, 0x01, 0x02, 0x03, 0x04, 0x05, 0x06, 0x07, 0x08, 0xC0].map (decodeTableWord 8) =
      [some (.encode 0 0 (Vector.replicate 12 0)), some .readFrame, some (.setMode 0),
        some (.decodeFirmware (Vector.replicate 10 0)), some .queryData, some (.setDeviceId 0), some (.setSleep 0),
        some .queryFirmware, some (.setWorkingPeriod 0), some (.measurementResponse 0 0 0 0)] := by decide

theorem test_table_word_decodeMeasurement_two_bits :
    decodeTableWord 2 0x02 = some (.decodeMeasurement (Vector.replicate 10 0)) := by decide

/-! ## One step of each instruction -/

/-- 95_test_vectors.md 3.1: `ENCODE 0, []`, the negative sum wraps. -/
theorem test_encode_negative_sum : lastResponse (exec (.encode 0 0 (Vector.replicate 12 0xFF)) State.reset)
    = some ⟨.ok, .cmdFrame #v[0xAA, 0xB4, 0, 0, 0, 0, 0, 0, 0, 0, 0, 0, 0, 0, 0, 0xFF, 0xFF, 0xFE, 0xAB]⟩ := by decide

/-- 3.1: `ENCODE 0xFF, [0xFF]*12`, the largest sum. -/
theorem test_encode_largest_sum : lastResponse (exec (.encode 0xFF 12 (Vector.replicate 12 0xFF)) State.reset)
    = some ⟨.ok, .cmdFrame #v[0xAA, 0xB4, 0xFF, 0xFF, 0xFF, 0xFF, 0xFF, 0xFF, 0xFF, 0xFF, 0xFF, 0xFF, 0xFF, 0xFF, 0xFF,
        0xFF, 0xFF, 0xF1, 0xAB]⟩ := by decide

/-- 3.1: `SET_MODE 255`. -/
theorem test_setMode_wraps : lastResponse (exec (.setMode 255) State.reset)
    = some ⟨.ok, .cmdFrame #v[0xAA, 0xB4, 2, 1, 0xFF, 0, 0, 0, 0, 0, 0, 0, 0, 0, 0, 0xFF, 0xFF, 0x00, 0xAB]⟩ := by decide

/-- 3.1: `QUERY_DATA`. -/
theorem test_queryData : lastResponse (exec .queryData State.reset)
    = some ⟨.ok, .cmdFrame #v[0xAA, 0xB4, 4, 0, 0, 0, 0, 0, 0, 0, 0, 0, 0, 0, 0, 0xFF, 0xFF, 0x02, 0xAB]⟩ := by decide

/-- 3.1: `SET_DEVICE_ID 0x1234`. -/
theorem test_setDeviceId : lastResponse (exec (.setDeviceId 0x1234) State.reset)
    = some ⟨.ok, .cmdFrame #v[0xAA, 0xB4, 5, 0, 0, 0, 0, 0, 0, 0, 0, 0, 0, 0x34, 0x12, 0xFF, 0xFF, 0x49, 0xAB]⟩ := by
  decide

/-- 3.1: `SET_SLEEP 1`. -/
theorem test_setSleep : lastResponse (exec (.setSleep 1) State.reset)
    = some ⟨.ok, .cmdFrame #v[0xAA, 0xB4, 6, 1, 1, 0, 0, 0, 0, 0, 0, 0, 0, 0, 0, 0xFF, 0xFF, 0x06, 0xAB]⟩ := by decide

/-- 3.1: `QUERY_FIRMWARE`. -/
theorem test_queryFirmware : lastResponse (exec .queryFirmware State.reset)
    = some ⟨.ok, .cmdFrame #v[0xAA, 0xB4, 7, 0, 0, 0, 0, 0, 0, 0, 0, 0, 0, 0, 0, 0xFF, 0xFF, 0x05, 0xAB]⟩ := by decide

/-- 3.1: `SET_WORKING_PERIOD 255`. -/
theorem test_setWorkingPeriod_wraps : lastResponse (exec (.setWorkingPeriod 255) State.reset)
    = some ⟨.ok, .cmdFrame #v[0xAA, 0xB4, 8, 1, 0xFF, 0, 0, 0, 0, 0, 0, 0, 0, 0, 0, 0xFF, 0xFF, 0x06, 0xAB]⟩ := by decide

/-- R75: READ_FRAME begins in HUNT with its request pending. -/
theorem test_readFrame_starts : nextField (exec .readFrame State.reset) (fun s => (s.phase, s.count, s.pending))
    = some (.hunt, 0, some .readFrame) := by decide

/-- 3.2 RF9: an error in COLLECT at `count = 3`. -/
theorem test_readFrame_transport_error : nextField (step (collectState 3 [.err])) (fun s => (s.phase, s.count, s.response))
    = some (.idle, 0, some ⟨.transportError, .none⟩) := by decide

/-- 3.3 DM8: little-endian fields, the reserved bytes count in the sum. -/
theorem test_decodeMeasurement_fields : lastResponse
    (exec (.decodeMeasurement #v[0xAA, 0xC0, 0x34, 0x12, 0x78, 0x56, 0xAB, 0xCD, 0x8C, 0xAB]) State.reset)
      = some ⟨.ok, .measurement 4660 22136 true⟩ := by decide

/-- 3.3 DM3: trailer wrong, checksum right. -/
theorem test_decodeMeasurement_trailer : lastResponse
    (exec (.decodeMeasurement #v[0xAA, 0xC0, 0x64, 0x00, 0xC8, 0x00, 0x00, 0x00, 0x2C, 0x00]) State.reset)
      = some ⟨.checksumMismatch, .measurement 100 200 false⟩ := by decide

/-- 3.4 DF4: no calendar check. -/
theorem test_decodeFirmware_fields : lastResponse
    (exec (.decodeFirmware #v[0xAA, 0x00, 0x00, 0x18, 0x0D, 0x00, 0xFF, 0xFF, 0x23, 0xAB]) State.reset)
      = some ⟨.ok, .firmware 24 13 0 0xFFFF true⟩ := by decide

/-- 3.4 DF3: the lead byte is in the checksum window. -/
theorem test_decodeFirmware_lead_byte : lastResponse
    (exec (.decodeFirmware #v[0xAA, 0x00, 0x01, 0x18, 0x03, 0x0F, 0x34, 0x12, 0x70, 0xAB]) State.reset)
      = some ⟨.checksumMismatch, .firmware 24 3 15 0x1234 false⟩ := by decide

/-- 3.3 DM1 as the frame the device sends. -/
theorem test_measurementResponse : nextField (exec (.measurementResponse 100 200 0 0) (idleState [] [.byte 0x55] []))
    (fun s => s.rx) = some [.byte 0x55, .byte 0xAA, .byte 0xC0, .byte 0x64, .byte 0x00, .byte 0xC8, .byte 0x00, .byte 0x00,
      .byte 0x00, .byte 0x2C, .byte 0xAB] := by decide

/-- 3.3 DM14: another subtype is refused. -/
theorem test_decodeMeasurement_refused : refusalOf
    (exec (.decodeMeasurement #v[0xAA, 0xC5, 0x07, 0x18, 0x03, 0x0F, 0x34, 0x12, 0x77, 0xAB]) State.reset)
      = some .measurementSubtype := by decide

/-! ## Byte steps and the other steps -/

/-- 3.2, byte step 3 of RF2. -/
theorem test_hunt_start_marker : nextField (step (huntState [.byte 0xAA, .byte 0xC0]))
    (fun s => (s.phase, s.count, s.buf[0], s.rx)) = some (.collect, 1, 0xAA, [.byte 0xC0]) := by decide

/-- 3.2 RF4: `AA` inside COLLECT is data. -/
theorem test_collect_start_marker_is_data : nextField (step (collectState 2 [.byte 0xAA]))
    (fun s => (s.phase, s.count, s.buf[2])) = some (.collect, 3, 0xAA) := by decide

/-- 3.2, byte step 12 of RF2. -/
theorem test_collect_completes : nextField (step (collectState 9 [.byte 0xAB, .byte 0x55]))
    (fun s => (s.phase, s.count, s.response, s.rx)) = some (.idle, 0,
      some ⟨.ok, .rspFrame #v[0xAA, 0xC0, 0x64, 0x00, 0xC8, 0x00, 0x00, 0x00, 0x2C, 0xAB]⟩, [.byte 0x55]) := by decide

/-- P5: reset during a READ_FRAME that waits. -/
theorem test_reset_during_read : nextField (step { collectState 4 [.byte 0x07] with env := ⟨[.reset], .free 0⟩ })
    (fun s => (s.phase, s.count, s.delivered, s.rx)) = some (.idle, 0, [], [.byte 0x07]) := by decide

/-- R40: a repeating tail offers its noise again and again: two bytes in four steps, and both are discarded. -/
theorem test_endless_noise : nextField
    (Host.Core.run Sys2Proof.core 4 { huntState [] with env := ⟨[], .repeating [.byte 7, .quiet]⟩ })
    (fun s => (s.phase, s.rx, s.env)) = some (.hunt, [], ⟨[], .repeating [.byte 7, .quiet]⟩) := by decide

/-- R113: a request the caller issues is accepted in the block's next step. -/
theorem test_caller_offers : nextField (Host.Core.run Sys2Proof.core 2 (idleState [] [] [.offer (encode .readFrame), .quiet]))
    (fun s => (s.phase, s.pending, s.port)) = some (.hunt, some .readFrame, []) := by decide

/-- R24: the caller passes a frame back, DM1, and gets its fields. -/
theorem test_caller_passes_back : nextField (Host.Core.run Sys2Proof.core 2
    { idleState [] [] [.passBack .measurement, .quiet] with
      delivered := [⟨.ok, .rspFrame #v[0xAA, 0xC0, 0x64, 0x00, 0xC8, 0x00, 0x00, 0x00, 0x2C, 0xAB]⟩] })
    (fun s => s.response) = some (some ⟨.ok, .measurement 100 200 true⟩) := by decide

/-- R40: an error at the very next take, before the byte held. -/
theorem test_error_before_held_bytes : nextField
    (Host.Core.run Sys2Proof.core 2 { huntState [.byte 0xAA] with env := ⟨[.errorNow, .quiet], .repeating []⟩ })
    (fun s => (s.phase, s.response)) = some (.idle, some ⟨.transportError, .none⟩) := by decide

/-- A request offered while a READ_FRAME waits is held. -/
theorem test_request_held : nextField (step { huntState [] with port := [encode .queryData] })
    (fun s => (s.port, s.delivered)) = some ([encode .queryData], []) := by decide

/-- A placed word runs in the next step. -/
theorem test_placed_word_runs : lastResponse (step (State.reset.withFetchWord 8 0x04))
    = some ⟨.ok, .cmdFrame #v[0xAA, 0xB4, 4, 0, 0, 0, 0, 0, 0, 0, 0, 0, 0, 0, 0, 0xFF, 0xFF, 0x02, 0xAB]⟩ := by decide

/-- 42_decode.md R94: raw 65535 is 6553.5. -/
theorem test_concentration : concentrationDecimal 65535 = (6553, 5) := by decide

/-- 10_state.md section 4: the bus of `AA C0 64 00 C8 00 00 00 2C AB`. -/
theorem test_bus : packBytes 80 [0xAA, 0xC0, 0x64, 0x00, 0xC8, 0x00, 0x00, 0x00, 0x2C, 0xAB] = 0xAB2C000000C80064C0AA := by
  decide

/-- A READ_FRAME over `rx` in an environment that is quiet now and offers a byte later. -/
def laterState (rx : List RxItem) : State := { huntState rx with env := ⟨[.quiet, .byte 7], .free 3⟩ }

/-! ## Witnesses: for each statement with hypotheses, a state and operands that meet them all -/

theorem witness_DecodeOfEncodeIsIdentity :
    (Instr.encode 5 255 (Vector.replicate 12 7)).wellFormed = true ∧ (Instr.setSleep 1).wellFormed = true := by decide

theorem witness_DecodedInstructionsAreWellFormed : decode ⟨.logical, [0x06, 0x01, 0x00]⟩ = .ok (.setSleep 1) := by decide

/-- Both clauses at their boundary: lengths 12 and 13. -/
theorem witness_EncodeAnswersFrameOrInvalidArgument : State.reset.pending = none ∧ 12 ≤ 12 ∧ 12 < 13 := by decide

theorem witness_PayloadIsPaddedNeverTruncated :
    (List.replicate 12 (7 : Byte)).length ≤ 12 ∧ 12 < (List.replicate 13 (7 : Byte)).length := by decide

theorem witness_CommandChecksumIsSumMinusTwo : (List.replicate 12 (7 : Byte)).length ≤ 12 := by decide

theorem witness_SetModeAnswersFrame : State.reset.pending = none := rfl
theorem witness_QueryDataAnswersFrame : State.reset.pending = none := rfl
theorem witness_SetDeviceIdAnswersFrame : State.reset.pending = none := rfl

/-- Both clauses at their boundary: operands 1 and 2. -/
theorem witness_SetSleepAnswersFrameInRange :
    State.reset.pending = none ∧ (1 : Byte).toNat ≤ 1 ∧ 1 < (2 : Byte).toNat := by decide

theorem witness_QueryFirmwareAnswersFrame : State.reset.pending = none := rfl
theorem witness_SetWorkingPeriodAnswersFrame : State.reset.pending = none := rfl

/-- SET_MODE, SET_SLEEP in range and SET_WORKING_PERIOD; SET_DEVICE_ID; SET_SLEEP out of range. -/
theorem witness_LogicalCommandsExpandToEncode :
    (#v[1, 1, 0, 0, 0, 0, 0, 0, 0, 0, 9, 9] : Payload)[0] = 1 ∧ (#v[1, 1, 0, 0, 0, 0, 0, 0, 0, 0, 9, 9] : Payload)[1].toNat ≤ 1 ∧
    (∀ k : Fin 10, (#v[0, 0, 0, 0, 0, 0, 0, 0, 0, 0, 0x34, 0x12] : Payload)[k.val] = 0) ∧
    1 < (#v[1, 2, 0, 0, 0, 0, 0, 0, 0, 0, 0, 0] : Payload)[1].toNat := by decide

theorem witness_PayloadBytesBeyondLengthIgnored :
    ∀ k : Fin 12, k.val < 2 →
      (#v[1, 2, 3, 0, 0, 0, 0, 0, 0, 0, 0, 0] : Payload)[k.val] = (#v[1, 2, 9, 9, 0, 0, 0, 0, 0, 0, 0, 0] : Payload)[k.val] := by
  decide

theorem witness_EncodeIsPure : State.reset.pending = none := rfl
theorem witness_ReadFrameBeginsHunting : State.reset.pending = none := rfl

/-- With no move to come, and with moves to come. -/
theorem witness_HuntDiscardsOtherBytes :
    (laterState [.byte 0xAB]).Reading ∧ (laterState [.byte 0xAB]).rx = [.byte 0xAB] ∧
    (huntState [.byte 0xAB]).Reading ∧ (huntState [.byte 0xAB]).phase = .hunt ∧
    (huntState [.byte 0xAB]).rx = [.byte 0xAB] ∧ (0xAB : Byte) ≠ 0xAA := by decide

theorem witness_HuntStartMarkerBeginsFrame :
    (laterState [.byte 0xAA]).Reading ∧ (laterState [.byte 0xAA]).rx = [.byte 0xAA] ∧
    (huntState [.byte 0xAA]).Reading ∧ (huntState [.byte 0xAA]).phase = .hunt ∧
    (huntState [.byte 0xAA]).rx = [.byte 0xAA] := by decide

/-- At both ends of the range, counts 1 and 8. -/
theorem witness_CollectStoresByte :
    (collectState 1 [.byte 7]).Reading ∧ (collectState 1 [.byte 7]).count.val ≤ 8 ∧
    (collectState 8 [.byte 7]).Reading ∧ (collectState 8 [.byte 7]).count.val ≤ 8 ∧
    (collectState 8 [.byte 7]).phase = .collect ∧ (collectState 8 [.byte 7]).rx = [.byte 7] := by decide

theorem witness_CollectCompletesFrame :
    (collectState 9 [.byte 7]).Reading ∧ (collectState 9 [.byte 7]).count.val = 9 ∧
    (collectState 9 [.byte 7]).phase = .collect ∧ (collectState 9 [.byte 7]).rx = [.byte 7] := by decide

/-- In HUNT and in COLLECT. -/
theorem witness_TransportErrorEndsRead :
    (huntState [.err, .byte 7]).Reading ∧ (huntState [.err, .byte 7]).rx = [.err, .byte 7] ∧
    (collectState 9 [.err]).Reading ∧ (collectState 9 [.err]).rx = [.err] := by decide

/-- In HUNT and in COLLECT, with moves to come and with none. -/
theorem witness_WaitingReadStutters :
    (laterState []).Reading ∧ (laterState []).rx = [] ∧ (collectState 9 []).Reading ∧ (collectState 9 []).rx = [] := by decide

/-- Without a start marker, and with eight bytes after one; before and after the noise is taken. -/
theorem witness_ReadFrameMayNeverComplete :
    (huntState ([0x00, 0x01].map .byte)).env.Quiet ∧ (huntState ([0x00, 0x01].map .byte)).sequencerOk = true ∧
    (huntState ([0x00, 0x01].map .byte)).phase = .hunt ∧ (∀ b ∈ ([0x00, 0x01] : List Byte), b ≠ 0xAA) ∧
    (huntState (([0x00] ++ 0xAA :: List.replicate 8 0xAA).map .byte)).env.Quiet ∧
    (List.replicate 8 (0xAA : Byte)).length < 9 ∧ 1 ≤ [(0x00 : Byte)].length ∧ [(0x00 : Byte)].length < 2 := by
  decide

/-- Endless noise: one byte, a request, a step of the block, and so on. -/
theorem witness_EndlessNoiseNeverCompletes :
    let s : State := { huntState [.byte 5] with env := ⟨[], .repeating [.byte 7, .offer (encode .queryData), .quiet]⟩ }
    s.env.Noisy ∧ s.sequencerOk = true ∧ s.phase = .hunt ∧ ∀ x ∈ s.rx, ∃ b : Byte, b ≠ 0xAA ∧ x = .byte b :=
  ⟨⟨by simp, _, rfl, by simp [EnvMove.Noise, EnvMove.Caller]⟩, rfl, rfl, by simp [huntState]⟩

theorem witness_ReadFrameTakesNoiseAndTenBytes :
    let rx : List RxItem := ([0x00, 0xAB] : List Byte).map .byte ++ .byte 0xAA ::
      ((#v[0xC0, 0xAA, 1, 2, 3, 4, 5, 6, 0xAA] : Vector Byte 9).toList.map .byte ++ [.byte 0xC0])
    let s : State := { huntState rx with env := ⟨List.replicate 12 .quiet ++ [.reset], .free 0⟩ }
    s.env.quietFor 12 = true ∧ s.sequencerOk = true ∧ s.phase = .hunt ∧
    (∀ b ∈ ([0x00, 0xAB] : List Byte), b ≠ 0xAA) ∧
    s.rx = rx := by decide

/-- Both clauses: subtypes `0xC0` and `0xC5`. -/
theorem witness_DecodeMeasurementAnswersFields :
    State.reset.pending = none ∧ (#v[0xAA, 0xC0, 0x64, 0x00, 0xC8, 0x00, 0x00, 0x00, 0x2C, 0xAB] : RspFrame)[1] = 0xC0 ∧
    (#v[0xAA, 0xC5, 0x07, 0x18, 0x03, 0x0F, 0x34, 0x12, 0x77, 0xAB] : RspFrame)[1] ≠ 0xC0 := by decide

theorem witness_DecodeFirmwareAnswersFields : State.reset.pending = none := rfl

theorem witness_ChecksumAndTrailerChangesDetected :
    validFrame #v[0xAA, 0xC0, 0x64, 0x00, 0xC8, 0x00, 0x00, 0x00, 0x2C, 0xAB] = true ∧ (1 : Byte) ≠ 0 ∧ (0xAA : Byte) ≠ 0xAB ∧
    State.reset.pending = none ∧ (#v[0xAA, 0xC0, 0x64, 0x00, 0xC8, 0x00, 0x00, 0x00, 0x2C, 0xAB] : RspFrame)[1] = 0xC0 := by
  decide

theorem witness_CancellingChangesNotDetected : 2 ≤ 2 ∧ 2 < 7 ∧ 7 < 8 := by decide

theorem witness_MeasurementRoundTrip :
    (idleState [] [] [.quiet]).env.quietFor 10 = true ∧ (idleState [] [] [.quiet]).phase = .idle ∧
    (idleState [] [] [.quiet]).sequencerOk = true ∧ (idleState [] [] [.quiet]).rx = [] := by decide

theorem witness_ResetDropsRequestAndKeepsStream :
    ({ collectState 4 [.byte 7] with env := ⟨[.reset, .quiet], .free 0⟩ } : State).env.next = .reset := by decide

theorem witness_TransportMovesOnlyTheStream :
    (idleState [] [] [.byte 7]).env.next = .byte 7 ∧ (idleState [] [] [.error]).env.next = .error ∧
    (idleState [] [.byte 1] [.errorNow]).env.next = .errorNow ∧
    (idleState [] [.byte 1, .err] [.flush]).env.next = .flush ∧ (idleState [] [] [.quiet]).env.next = .quiet := by decide

/-- The caller that was given a frame of subtype `0xC0`, one that was given another, and one that was given none. -/
theorem witness_CallerMovesOnlyThePort :
    (idleState [] [] [.offer (encode .queryData)]).env.next = .offer (encode .queryData) ∧
    lastFrame [⟨.ok, .rspFrame #v[0xAA, 0xC0, 0, 0, 0, 0, 0, 0, 0, 0xAB]⟩, ⟨.ok, .firmware 1 2 3 4 true⟩] =
      some #v[0xAA, 0xC0, 0, 0, 0, 0, 0, 0, 0, 0xAB] ∧
    (#v[0xAA, 0xC0, 0, 0, 0, 0, 0, 0, 0, 0xAB] : RspFrame)[1] = 0xC0 ∧
    lastFrame [⟨.ok, .rspFrame (Vector.replicate 10 0xAA)⟩] = some (Vector.replicate 10 0xAA) ∧
    (Vector.replicate 10 0xAA : RspFrame)[1] ≠ 0xC0 ∧
    (idleState [] [] [.passBack .measurement]).env.next = .passBack .measurement ∧
    (idleState [] [] [.passBack .firmware]).env.next = .passBack .firmware ∧
    lastFrame (idleState [] [] []).delivered = none := by decide

theorem witness_CallerReadsAndDecodesInOneRun :
    let s : State := { State.reset with env := ⟨[.frame (encode (.measurementResponse 1 2 3 4)).bytes,
      .offer (encode .readFrame)] ++ List.replicate 11 .quiet ++ [.passBack .measurement, .quiet], .free 0⟩ }
    s.env.moves.length = 15 ∧ s.phase = .idle ∧ s.sequencerOk = true ∧ s.port = [] ∧ s.rx = [] := by decide

/-- From reset, and with a request held on the port. -/
theorem witness_FreeEnvironmentNeverStopsTheMachine :
    State.reset.Inv ∧ State.reset.env.Free ∧ State.reset.port = [] ∧ Servable (encode .queryData) :=
  ⟨⟨rfl, by decide, by simp [State.reset], by simp [State.reset]⟩, ⟨rfl, 0, rfl⟩, rfl, .queryData, rfl, by simp⟩

/-- A request with a byte still to arrive, and a response frame. -/
theorem witness_StepRunsTheDecodedInstruction :
    let s := idleState [encode .queryData] [] [.quiet, .byte 7]
    s.env.next = .quiet ∧ s.phase = .idle ∧ s.sequencerOk = true ∧ decodeRequest (encode .queryData) = .ok .queryData ∧
    (idleState [] [] [.frame [0xC0, 1, 0, 2, 0, 0, 0]]).env.next = .frame [0xC0, 1, 0, 2, 0, 0, 0] ∧
    decode ⟨.response, [0xC0, 1, 0, 2, 0, 0, 0]⟩ = .ok (.measurementResponse 1 2 0 0) := by decide

theorem witness_PlacedWordRunsNext : decodeTableWord 8 0x05 = some (.setDeviceId 0) := by decide

theorem witness_BusyBlockHoldsEveryRequest :
    (huntState []).pending ≠ none ∧ Instr.queryData.wellFormed = true ∧
    Instr.queryData ≠ .measurementResponse 0 0 0 0 := by decide

theorem witness_OfferedRequestsWaitForResponse : (huntState []).phase ≠ .idle ∧ step (huntState []) = .next (huntState []) ∧
    ¬ (huntState []).env.next.Caller :=
  ⟨by decide, rfl, by simp [EnvMove.Caller, huntState, Environment.next]⟩

theorem witness_IdleBlockTakesNoByte : (idleState [] [.byte 7] []).env.next = .quiet ∧
    (idleState [] [.byte 7] []).phase = .idle ∧ step (idleState [] [.byte 7] []) = .next (idleState [] [.byte 7] []) :=
  ⟨rfl, rfl, rfl⟩

theorem witness_NoRequestNoStep :
    let s := idleState [] [] [.quiet, .byte 7]
    s.env.next = .quiet ∧ s.phase = .idle ∧ s.sequencerOk = true ∧ s.port = [] := by decide

/-- Both buses: a state that drives a command frame, and one that drives a response frame. -/
theorem witness_PortSignals :
    let s : State := { idleState [] [] [] with response := some ⟨.ok, .cmdFrame (Vector.replicate 19 7)⟩ }
    let t : State := { idleState [] [] [] with response := some ⟨.ok, .rspFrame (Vector.replicate 10 7)⟩ }
    s.respCmdFrame = some (packBytes 152 (List.replicate 19 7)) ∧ t.respRspFrame = some (packBytes 80 (List.replicate 10 7)) := by
  decide

theorem witness_AtMostOneResponsePerStep : step (huntState []) = .next (huntState []) := rfl

theorem witness_RefusedOnlyWhereTheSpecRefuses : exec (.setSleep 2) State.reset = .refused .sleepOperand := rfl

/-- For StepKeepsInvariant and InvariantStatesNeverFault. -/
theorem witness_StepKeepsInvariant : (huntState []).Inv ∧ step (huntState []) = .next (huntState []) :=
  ⟨⟨rfl, by decide, by simp [huntState, State.reset], by simp [huntState, State.reset]⟩, rfl⟩

theorem witness_NothingPendingMeansIdle : (idleState [] [.byte 7] []).Inv ∧ (idleState [] [.byte 7] []).pending = none :=
  ⟨⟨rfl, by decide, by simp [idleState, State.reset], by simp [idleState, State.reset]⟩, rfl⟩

end Sys2Proof.Machine
end

-- Proofs, family 00_scope.md: the little-endian assembly of R10.
section
namespace Sys2Proof

/-- R10 as a concatenation: the two bytes do not overlap, so the "or" of R10 puts `hi` above `lo`. -/
theorem le16_eq_append (lo hi : Byte) : le16 lo hi = hi ++ lo := by
  rw [BitVec.append_def, BitVec.shiftLeftZeroExtend_eq, BitVec.setWidth'_eq, BitVec.or_comm]
  rfl

@[simp] theorem loByte_le16 (lo hi : Byte) : loByte (le16 lo hi) = lo := by
  rw [le16_eq_append]
  exact BitVec.extractLsb'_append_eq_right

@[simp] theorem hiByte_le16 (lo hi : Byte) : hiByte (le16 lo hi) = hi := by
  rw [le16_eq_append]
  exact BitVec.extractLsb'_append_eq_left

theorem toNat_le16 (lo hi : Byte) : (le16 lo hi).toNat = lo.toNat + 256 * hi.toNat := by
  rw [le16_eq_append, BitVec.toNat_append, ← Nat.shiftLeft_add_eq_or_of_lt lo.isLt, Nat.shiftLeft_eq]
  omega

/-- Settles O36: the formula is the definition of `le16`; the bytes and the value come from `le16_eq_append`. -/
theorem littleEndianAssembly : Obligations.LittleEndianAssembly := fun lo hi =>
  ⟨rfl, loByte_le16 lo hi, hiByte_le16 lo hi, toNat_le16 lo hi⟩

end Sys2Proof
end

-- Proofs, family 10_state.md, the block: what `exec` can do, the invariant and its step lemma.
section
namespace Sys2Proof.Machine

/-! ### Sums of bytes and the checksum of a command frame -/

@[simp] theorem sumBytes_nil : sumBytes [] = 0 := rfl

@[simp] theorem sumBytes_cons (b : Byte) (bs : List Byte) : sumBytes (b :: bs) = b.toNat + sumBytes bs := by
  simp [sumBytes]

@[simp] theorem sumBytes_append (bs cs : List Byte) : sumBytes (bs ++ cs) = sumBytes bs + sumBytes cs := by
  simp [sumBytes]

/-- R60 in natural numbers: the Euclidean remainder of "minus 2" is that of "plus 254". -/
theorem toNat_cmdChecksum (cmd : Byte) (q : Payload) :
    (cmdChecksum cmd q).toNat = (sumBytes q.toList + cmd.toNat + 254) % 256 := by
  simp only [cmdChecksum, BitVec.toNat_ofInt]
  omega

/-- The bytes 2 to 16 of a command frame, the window of R61. -/
theorem cmdFrameOf_window (cmd : Byte) (q : Payload) :
    ((cmdFrameOf cmd q).toList.drop 2).take 15 = cmd :: (q.toList ++ [0xFF, 0xFF]) := by
  rw [cmdFrameOf_toList, payload_toList]
  rfl

/-- R70: every frame ENCODE builds is a legal command frame. -/
theorem cmdFrameOf_legal (cmd : Byte) (q : Payload) : CmdFrameLegal (cmdFrameOf cmd q) := by
  have checksum : (cmdFrameOf cmd q)[17] = cmdChecksum cmd q := rfl
  refine ⟨rfl, rfl, rfl, rfl, rfl, ?_⟩
  rw [checksum, toNat_cmdChecksum, cmdFrameOf_window]
  simp
  omega

/-! ### What exec can do -/

/-- What an instruction can do in `s`, with the ground of each outcome: the inversion of `exec`. -/
inductive ExecOutcome (s : State) : Instr → StepOutcome → Prop where
  /-- R23: a request is outstanding, and this one is held. -/
  | held {i : Instr} (busy : s.pending ≠ none) : ExecOutcome s i (.next s)
  /-- R104: accepted and answered in the same step, with a response R52 and R100 allow. -/
  | answered {i : Instr} {st : Status} {res : Result} (free : s.pending = none) (legal : Response.Legal ⟨st, res⟩) :
      ExecOutcome s i (.next (s.answered st res))
  /-- R75: a READ_FRAME accepted. -/
  | hunting (free : s.pending = none) :
      ExecOutcome s .readFrame (.next { s with pending := some .readFrame, phase := .hunt, count := 0 })
  /-- R38: the device's frame reaches the stream, whatever the block does. -/
  | arrived {pm25 pm10 : Half} {res6 res7 : Byte} (items : List RxItem) :
      ExecOutcome s (.measurementResponse pm25 pm10 res6 res7) (.next (arrive items s))
  /-- R93: an accepted DECODE_MEASUREMENT of another subtype. -/
  | otherSubtype {F : RspFrame} (free : s.pending = none) (subtype : F[1] ≠ 0xC0) :
      ExecOutcome s (.decodeMeasurement F) (.refused .measurementSubtype)
  /-- R66: an operand of SET_SLEEP out of its range. -/
  | sleepOperand {v : Byte} (range : 1 < v.toNat) : ExecOutcome s (.setSleep v) (.refused .sleepOperand)

/-- A served request is held or has the outcome of its meaning. -/
theorem ExecOutcome.of_serve {i : Instr} {r : Request} {m : State → StepOutcome} {s : State}
    (h : s.pending = none → ExecOutcome s i (m { s with pending := some r })) : ExecOutcome s i (serve r m s) := by
  rcases serve_cases r m s with ⟨busy, hs⟩ | ⟨free, hs⟩ <;> rw [hs]
  · exact .held busy
  · exact h free

/-- ENCODE's answer, a frame or INVALID_ARGUMENT, is legal (R62, R70). -/
theorem ExecOutcome.of_answerEncode {i : Instr} {r : Request} {s : State} (cmd : Byte) (p : List Byte)
    (free : s.pending = none) : ExecOutcome s i (answerEncode cmd p { s with pending := some r }) := by
  rw [answerEncode_eq]
  split <;> rw [respond_accepted free]
  · exact .answered free ⟨rfl, cmdFrameOf_legal cmd _⟩
  · exact .answered free (.inl rfl)

theorem ExecOutcome.of_serveCommand {i : Instr} (cmd : Byte) (p : List Byte) (s : State) :
    ExecOutcome s i (serveCommand cmd p s) :=
  .of_serve (.of_answerEncode cmd p)

/-- A parser's answer is legal when its `csum_ok` is the validity of the frame (R27, R91). -/
theorem ExecOutcome.of_answerDecode {i : Instr} {r : Request} {F : RspFrame} {fields : Result} {s : State}
    (free : s.pending = none) (legal : Response.Legal ⟨decodeStatus F, fields⟩) :
    ExecOutcome s i (.next (answerDecode F fields { s with pending := some r })) := by
  rw [answerDecode_eq, respond_accepted free]
  exact .answered free legal

/-- Everything an instruction can do, said once. -/
theorem exec_outcome (i : Instr) (s : State) : ExecOutcome s i (exec i s) := by
  cases i with
  | encode cmd len payload => exact .of_serve (.of_answerEncode cmd _)
  | readFrame => exact .of_serve .hunting
  | decodeMeasurement F =>
    refine .of_serve fun free => ?_
    by_cases hF : F[1] = 0xC0
    · rw [if_pos hF]; exact .of_answerDecode free rfl
    · rw [if_neg hF]; exact .otherSubtype free hF
  | decodeFirmware F => exact .of_serve fun free => .of_answerDecode free rfl
  | setMode m => exact .of_serveCommand _ _ s
  | queryData => exact .of_serveCommand _ _ s
  | setDeviceId id => exact .of_serveCommand _ _ s
  | setSleep v =>
    by_cases hv : v.toNat ≤ 1
    · have : exec (.setSleep v) s = serveCommand Config.codeSleep (sleepPayload v) s := if_pos hv
      rw [this]; exact .of_serveCommand _ _ s
    · have : exec (.setSleep v) s = .refused .sleepOperand := if_neg hv
      rw [this]; exact .sleepOperand (Nat.lt_of_not_le hv)
  | queryFirmware => exact .of_serveCommand _ _ s
  | setWorkingPeriod t => exact .of_serveCommand _ _ s
  | measurementResponse pm25 pm10 res6 res7 => exact .arrived _

/-- Settles O48: of what `exec` can do, only holding the request is left when one is outstanding. -/
theorem busyBlockHoldsEveryRequest : Obligations.BusyBlockHoldsEveryRequest := by
  intro i s busy wf request
  have h := exec_outcome i s
  generalize exec i s = o at h
  cases h with
  | held => rfl
  | answered free => exact absurd free busy
  | hunting free => exact absurd free busy
  | arrived => exact absurd rfl (request _ _ _ _)
  | otherSubtype free => exact absurd free busy
  | sleepOperand range => simp only [Instr.wellFormed, decide_eq_true_eq] at wf; omega

/-! ### The invariant, operation by operation -/

/-- The invariant reads the block's registers and the responses only: it survives any change of the ports, the stream
and the environment, and a response dropped. -/
theorem State.Inv.congr {s t : State} (h : s.Inv) (phase : t.phase = s.phase) (count : t.count = s.count)
    (buf : t.buf = s.buf) (pending : t.pending = s.pending) (delivered : t.delivered = s.delivered)
    (response : t.response = none ∨ t.response = s.response) : t.Inv where
  sequencer := by
    have : t.sequencerOk = s.sequencerOk := by simp only [State.sequencerOk, phase, count, pending]
    exact this.trans h.sequencer
  start := by rw [phase, buf]; exact h.start
  delivered := by rw [delivered]; exact h.delivered
  response := by
    rcases response with hr | hr <;> rw [hr]
    · simp
    · exact h.response

/-- An idle block meets the invariant whatever its frame buffer holds (R22). -/
theorem State.Inv.of_idle {s : State} (phase : s.phase = .idle) (count : s.count = 0) (pending : s.pending = none)
    (delivered : ∀ r ∈ s.delivered, r.Legal) (response : ∀ r, s.response = some r → r.Legal) : s.Inv where
  sequencer := (sequencerOk_idle phase).2 ⟨pending, count⟩
  start := by simp [phase]
  delivered := delivered
  response := response

theorem sequencerOk_of_collect {s : State} (phase : s.phase = .collect) (pending : s.pending = some .readFrame)
    (low : 1 ≤ s.count.val) (high : s.count.val ≤ 9) : s.sequencerOk = true :=
  (sequencerOk_collect phase).2 ⟨pending, low, high⟩

/-- A collecting block meets the invariant when its READ_FRAME is pending, 1 to 9 bytes are in and `buf` begins with
the start marker (R21, R22, R23). -/
theorem State.Inv.of_collect {s : State} (phase : s.phase = .collect) (pending : s.pending = some .readFrame)
    (low : 1 ≤ s.count.val) (high : s.count.val ≤ 9) (start : s.buf[0] = 0xAA)
    (delivered : ∀ r ∈ s.delivered, r.Legal) (response : ∀ r, s.response = some r → r.Legal) : s.Inv where
  sequencer := sequencerOk_of_collect phase pending low high
  start := fun _ => start
  delivered := delivered
  response := response

/-- Settles O57: after reset the block is idle and no response was given. -/
theorem resetMeetsInvariant : Obligations.ResetMeetsInvariant :=
  .of_idle rfl rfl rfl (by simp [State.reset]) (by simp [State.reset])

/-- Settles O56: the fields of `State.reset` as R29 lists them. -/
theorem resetStateValues : Obligations.ResetStateValues := ⟨rfl, rfl, rfl, rfl, rfl⟩

/-- A record of legal responses stays one when a legal response joins it. -/
theorem legal_append {rs : List Response} {r : Response} (hrs : ∀ q ∈ rs, q.Legal) (hr : r.Legal) :
    ∀ q ∈ rs ++ [r], q.Legal := by
  intro q hq
  rcases List.mem_append.1 hq with hq | hq
  · exact hrs q hq
  · exact List.mem_singleton.1 hq ▸ hr

theorem State.Inv.answered {s : State} (h : s.Inv) {st : Status} {res : Result} (legal : Response.Legal ⟨st, res⟩) :
    (s.answered st res).Inv where
  sequencer := h.sequencer
  start := h.start
  delivered := legal_append h.delivered legal
  response := by rintro r ⟨⟩; exact legal

/-- A READ_FRAME that fails leaves an idle block and a response R103 allows. -/
theorem failRead_inv {s : State} (delivered : ∀ r ∈ s.delivered, r.Legal) : (failRead s).Inv := by
  have legal : Response.Legal ⟨.transportError, .none⟩ := .inr rfl
  exact .of_idle rfl rfl rfl (legal_append delivered legal) (by rintro r ⟨⟩; exact legal)

/-- A READ_FRAME that completes leaves an idle block and a frame that begins with the start marker (R81). -/
theorem completeRead_inv {s : State} (start : s.buf[0] = 0xAA) (delivered : ∀ r ∈ s.delivered, r.Legal) :
    (completeRead s).Inv := by
  have legal : Response.Legal ⟨.ok, .rspFrame s.buf⟩ := ⟨rfl, start⟩
  exact .of_idle rfl rfl rfl (legal_append delivered legal) (by rintro r ⟨⟩; exact legal)

theorem blockReset_inv {s : State} (h : s.Inv) : (blockReset s).Inv :=
  .of_idle rfl rfl rfl h.delivered (by simp)

/-- A byte taken in `HUNT` leaves the invariant: the start marker goes to `buf[0]` as the block begins to collect. -/
theorem huntByte_inv {s : State} (h : s.Inv) (hp : s.phase = .hunt) (b : Byte) : (huntByte b s).Inv := by
  by_cases hb : b = 0xAA
  · subst hb
    rw [huntByte_start]
    obtain ⟨pending, -⟩ := (sequencerOk_hunt hp).1 h.sequencer
    exact .of_collect rfl pending (Nat.le_refl 1) (by simp) (by simp) h.delivered h.response
  · rw [huntByte_other hb]
    exact h

/-- A byte taken in `COLLECT` leaves the invariant: `count` is at least 1, so the start marker in `buf[0]` stays. -/
theorem collectByte_inv {s : State} (h : s.Inv) (hp : s.phase = .collect) (b : Byte) : (collectByte b s).Inv := by
  obtain ⟨pending, low, -⟩ := (sequencerOk_collect hp).1 h.sequencer
  have start : (s.buf.setIfInBounds s.count.val b)[0] = 0xAA := by
    rw [Vector.getElem_setIfInBounds_ne (by omega) (by omega)]
    exact h.start hp
  by_cases hc : s.count.val + 1 < 10
  · rw [collectByte_store hc]
    exact .of_collect hp pending (Nat.le_add_left 1 _) (Nat.le_of_lt_succ hc) start h.delivered h.response
  · rw [collectByte_complete hc]
    exact completeRead_inv start h.delivered

/-- A byte step keeps the invariant when taking a byte does. -/
theorem byteStep_inv {f : Byte → State → State} {s : State} (h : s.Inv)
    (hf : ∀ b rest, (f b { s with rx := rest }).Inv) : (byteStep f s).Inv := by
  rcases byteStep_cases f s with ⟨-, hs⟩ | ⟨b, rest, -, hs⟩ | ⟨rest, -, hs⟩ <;> rw [hs]
  · exact h
  · exact hf b rest
  · exact failRead_inv h.delivered

/-- No instruction leaves the invariant. -/
theorem exec_inv {i : Instr} {s t : State} (h : s.Inv) (ht : exec i s = .next t) : t.Inv := by
  have ho := exec_outcome i s
  rw [ht] at ho
  cases ho with
  | held => exact h
  | answered _ legal => exact h.answered legal
  | hunting =>
    exact {
      sequencer := (sequencerOk_hunt rfl).2 ⟨rfl, rfl⟩
      start := by simp
      delivered := h.delivered
      response := h.response }
  | arrived => exact h.congr rfl rfl rfl rfl rfl (.inr rfl)

theorem runDecoded_inv {d : Except DecodeError Instr} {s t : State} (h : s.Inv) (ht : runDecoded d s = .next t) :
    t.Inv := by
  cases d with
  | ok i => exact exec_inv h ht
  | error why => cases ht

theorem fetch_nil {s : State} (h : s.port = []) : fetch s = .next s := by
  simp [fetch, h]

theorem fetch_cons {s : State} {w : Word} {rest : List Word} (h : s.port = w :: rest) :
    fetch s = runDecoded (decodeRequest w) { s with port := rest } := by
  simp [fetch, h]

theorem fetch_inv {s t : State} (h : s.Inv) (ht : fetch s = .next t) : t.Inv := by
  cases hp : s.port with
  | nil =>
    rw [fetch_nil hp] at ht
    cases ht
    exact h
  | cons w rest =>
    rw [fetch_cons hp] at ht
    exact runDecoded_inv (s := { s with port := rest }) (h.congr rfl rfl rfl rfl rfl (.inr rfl)) ht

/-- The block's own step keeps the invariant, in every phase. -/
theorem blockStep_inv {s t : State} (h : s.Inv) (ht : blockStep s = .next t) : t.Inv := by
  have taken (rest : List RxItem) : State.Inv { s with rx := rest } := h.congr rfl rfl rfl rfl rfl (.inr rfl)
  cases hp : s.phase with
  | idle =>
    rw [blockStep_idle hp h.sequencer] at ht
    exact fetch_inv h ht
  | hunt =>
    rw [blockStep_hunt hp h.sequencer] at ht
    cases ht
    exact byteStep_inv h fun b rest => huntByte_inv (taken rest) hp b
  | collect =>
    rw [blockStep_collect hp h.sequencer] at ht
    cases ht
    exact byteStep_inv h fun b rest => collectByte_inv (taken rest) hp b

/-- Settles O58: over everything a step can do, the block's own step, the environment's moves and reset. -/
theorem stepKeepsInvariant : Obligations.StepKeepsInvariant := by
  intro s t hs ht
  have begun : State.Inv { s with env := s.env.rest, response := none } := hs.congr rfl rfl rfl rfl rfl (.inl rfl)
  rcases step_cases s with ⟨-, h⟩ | ⟨-, offered, h⟩ | ⟨-, rx', h⟩ | ⟨-, h⟩ | ⟨bytes, why, -, h⟩ <;> rw [h] at ht
  · exact blockStep_inv begun ht
  · cases ht
    exact begun.congr rfl rfl rfl rfl rfl (.inl rfl)
  · cases ht
    exact begun.congr rfl rfl rfl rfl rfl (.inl rfl)
  · cases ht
    exact blockReset_inv begun
  · cases ht

end Sys2Proof.Machine
end

-- Proofs, family 10_state.md, the two ports: requests held, the caller's moves, a whole exchange as one run.
section
namespace Sys2Proof.Machine

/-! ### Requests held while a READ_FRAME is outstanding -/

@[simp] theorem huntByte_port (b : Byte) (s : State) : (huntByte b s).port = s.port := by
  unfold huntByte
  split <;> rfl

@[simp] theorem collectByte_port (b : Byte) (s : State) : (collectByte b s).port = s.port := by
  unfold collectByte
  split <;> rfl

/-- A byte step leaves the request port when taking a byte does. -/
theorem byteStep_port {f : Byte → State → State} (hf : ∀ b s, (f b s).port = s.port) (s : State) :
    (byteStep f s).port = s.port := by
  rcases byteStep_cases f s with ⟨-, hs⟩ | ⟨b, rest, -, hs⟩ | ⟨rest, -, hs⟩ <;> rw [hs]
  · exact hf b _
  · rfl

/-- Outside `IDLE` the block's own step is a byte step, which leaves the request port (R23). -/
theorem blockStep_port {s t : State} (hp : s.phase ≠ .idle) (ht : blockStep s = .next t) : t.port = s.port := by
  by_cases ok : s.sequencerOk = true
  · cases hph : s.phase with
    | idle => exact absurd hph hp
    | hunt =>
      rw [blockStep_hunt hph ok] at ht
      cases ht
      exact byteStep_port huntByte_port s
    | collect =>
      rw [blockStep_collect hph ok] at ht
      cases ht
      exact byteStep_port collectByte_port s
  · simp [blockStep, ok] at ht

/-- Settles O49: the block's own step leaves the port, and of the moves only the caller's add to it. -/
theorem offeredRequestsWaitForResponse : Obligations.OfferedRequestsWaitForResponse := by
  intro s t hp ht
  have unchanged (h : t.port = s.port) : s.port <+: t.port ∧ (¬ s.env.next.Caller → t.port = s.port) :=
    ⟨⟨[], (List.append_nil _).trans h.symm⟩, fun _ => h⟩
  rcases step_cases s with ⟨-, h⟩ | ⟨caller, offered, h⟩ | ⟨-, rx', h⟩ | ⟨-, h⟩ | ⟨bytes, why, -, h⟩ <;> rw [h] at ht
  · exact unchanged (blockStep_port (s := { s with env := s.env.rest, response := none }) hp ht)
  · cases ht
    exact ⟨⟨offered, rfl⟩, fun other => absurd caller other⟩
  · cases ht
    exact unchanged rfl
  · cases ht
    exact unchanged rfl
  · cases ht

/-! ### The caller's moves -/

theorem passBack_nothing {s : State} (h : lastFrame s.delivered = none) (p : Config.Parser) : passBack p s = s := by
  simp [passBack, h]

theorem passBack_measurement {s : State} {F : RspFrame} (h : lastFrame s.delivered = some F) (hF : F[1] = 0xC0) :
    passBack .measurement s = offerRequest (encode (.decodeMeasurement F)) s := by
  simp [passBack, h, hF]

theorem passBack_otherSubtype {s : State} {F : RspFrame} (h : lastFrame s.delivered = some F) (hF : F[1] ≠ 0xC0) :
    passBack .measurement s = s := by
  simp only [passBack, h]
  exact if_neg hF

theorem passBack_firmware {s : State} {F : RspFrame} (h : lastFrame s.delivered = some F) :
    passBack .firmware s = offerRequest (encode (.decodeFirmware F)) s := by
  simp [passBack, h]

end Sys2Proof.Machine

namespace Sys2Proof

/-! ### The words of requests and of the response row -/

theorem wordPayload_fields (x cmd len : Byte) (payload : Payload) (frame : RspFrame) :
    wordPayload (x :: cmd :: len :: (payload.toList ++ frame.toList)) = payload := by
  refine Vector.ext fun i hi => ?_
  simp [wordPayload, byteAt, Nat.add_comm 3 i, List.getElem?_append_left, hi]

theorem wordFrame_fields (x cmd len : Byte) (payload : Payload) (frame : RspFrame) :
    wordFrame (x :: cmd :: len :: (payload.toList ++ frame.toList)) = frame := by
  refine Vector.ext fun i hi => ?_
  simp [wordFrame, byteAt, Nat.add_comm 15 i, List.getElem?_append_right, hi]

/-- A request word of any fields decodes to the request its two bits of `op` select (R51). -/
theorem decodeOperation_fields (x cmd len : Byte) (payload : Payload) (frame : RspFrame) :
    decodeOperation (x :: cmd :: len :: (payload.toList ++ frame.toList)) =
      .ok (if x.extractLsb' 0 2 = 0b00 then .encode cmd len.toNat payload
           else if x.extractLsb' 0 2 = 0b01 then .readFrame
           else if x.extractLsb' 0 2 = 0b10 then .decodeMeasurement frame
           else .decodeFirmware frame) := by
  have length : (x :: cmd :: len :: (payload.toList ++ frame.toList)).length = Format.operation.wordLength := by
    simp [Format.wordLength]
  rw [decodeOperation, if_pos length, wordPayload_fields, wordFrame_fields]
  have op : byteAt (x :: cmd :: len :: (payload.toList ++ frame.toList)) 0 = x := rfl
  rw [op, Op.ofCode]
  split_ifs <;> rfl

@[simp] theorem extractLsb'_setWidth_op (op : BitVec 2) : (op.setWidth 8).extractLsb' 0 2 = op := by
  revert op
  decide

/-- The bytes of a 16-bit value assemble to it again (R10, R33). -/
@[simp] theorem le16_loByte_hiByte (v : Half) : le16 (loByte v) (hiByte v) = v := by
  rw [le16_eq_append]
  exact BitVec.extractLsb'_append_extractLsb'_eq_extractLsb' (by rfl) |>.trans (BitVec.extractLsb'_eq_self)

theorem decode_measurementResponse (pm25 pm10 : Half) (res6 res7 : Byte) :
    decode ⟨.response, (encode (.measurementResponse pm25 pm10 res6 res7)).bytes⟩ =
      .ok (.measurementResponse pm25 pm10 res6 res7) := by
  simp [encode, decode, decodeResponse]

theorem decodeRequest_readFrame : decodeRequest (encode .readFrame) = .ok .readFrame := by
  decide

theorem decodeRequest_decodeMeasurement (F : RspFrame) :
    decodeRequest (encode (.decodeMeasurement F)) = .ok (.decodeMeasurement F) :=
  (decodeOperation_fields 0x02 0 0 (Vector.replicate 12 0) F).trans rfl

end Sys2Proof

namespace Sys2Proof.Machine

/-- A free request of the caller is a word that decodes to the request its fields are (R51, R113). -/
theorem requestMove_offer {op : BitVec 2} {frame : RspFrame} (h : op ≠ 0b10 ∨ frame[1] = 0xC0) (cmd len : Byte)
    (payload : Payload) :
    ∃ w : Word, requestMove op cmd len payload frame = .offer w ∧
      decodeRequest w = .ok
        (if op = 0b00 then .encode cmd len.toNat payload else if op = 0b01 then .readFrame
         else if op = 0b10 then .decodeMeasurement frame else .decodeFirmware frame) := by
  have issued : ¬ (op = 0b10 ∧ frame[1] ≠ 0xC0) := by tauto
  refine ⟨_, if_neg issued, ?_⟩
  exact (decodeOperation_fields _ cmd len payload frame).trans (by rw [extractLsb'_setWidth_op])

theorem step_offer {s : State} {w : Word} (h : s.env.next = .offer w) :
    step s = .next { s with port := s.port ++ [w], env := s.env.rest, response := none } := by
  rw [step_eq, h]
  rfl

/-- A frame is passed back in a step that makes `passBack` of the parser and nothing else. -/
theorem step_passBack {s : State} {p : Config.Parser} (h : s.env.next = .passBack p) :
    step s = .next (passBack p { s with env := s.env.rest, response := none }) := by
  rw [step_eq, h]
  rfl

theorem step_passBack_measurement {s : State} {F : RspFrame} (h : s.env.next = .passBack .measurement)
    (hF : lastFrame s.delivered = some F) (subtype : F[1] = 0xC0) :
    step s = .next
      { s with port := s.port ++ [encode (.decodeMeasurement F)], env := s.env.rest, response := none } :=
  (step_passBack h).trans (congrArg Host.Outcome.next (passBack_measurement hF subtype))

/-- Settles O42, move by move; a frame passed back by the cases of `passBack`. -/
theorem callerMovesOnlyThePort : Obligations.CallerMovesOnlyThePort := by
  refine ⟨fun s w => step_offer, fun s F hF => ⟨fun hm => step_passBack_measurement hm hF, fun hm subtype => ?_,
    fun hm => ?_⟩, fun s p hF hm => ?_, fun op cmd len payload frame =>
      ⟨fun h => if_pos h, fun h => requestMove_offer h cmd len payload⟩⟩
  · rw [step_passBack hm, passBack_otherSubtype (by exact hF) subtype]
  · rw [step_passBack hm, passBack_firmware (by exact hF)]
    rfl
  · rw [step_passBack hm, passBack_nothing (by exact hF)]

/-! ### Runs -/

theorem run_succ {s t : State} (h : step s = .next t) (k : Nat) :
    Host.Core.run Sys2Proof.core (k + 1) s = Host.Core.run Sys2Proof.core k t := by
  have core_step : Sys2Proof.core.step s = .next t := h
  simp only [Host.Core.run, core_step]

/-- A run goes on from the state its first part reaches. -/
theorem run_add {s t : State} {j : Nat} (h : Host.Core.run Sys2Proof.core j s = .next t) (k : Nat) :
    Host.Core.run Sys2Proof.core (j + k) s = Host.Core.run Sys2Proof.core k t := by
  induction j generalizing s with
  | zero => cases h; rw [Nat.zero_add]
  | succ j ih =>
    rw [Nat.succ_add]
    simp only [Host.Core.run] at h ⊢
    cases hs : Sys2Proof.core.step s with
    | next u => rw [hs] at h; exact ih h
    | fault r => rw [hs] at h; cases h
    | refused r => rw [hs] at h; cases h

/-! ### A READ_FRAME over the ten bytes of a frame -/

theorem Environment.quietFor_succ {e : Environment} {k : Nat} :
    e.quietFor (k + 1) = true ↔ e.next = .quiet ∧ e.rest.quietFor k = true := by
  simp [Environment.quietFor]

theorem byteStep_byte {f : Byte → State → State} {s : State} {b : Byte} {rest : List RxItem}
    (h : s.rx = .byte b :: rest) : byteStep f s = f b { s with rx := rest } := by
  simp [byteStep, rxTake_byte h]

theorem step_hunt_byte {s : State} {b : Byte} {rest : List RxItem} (h : s.Reading) (hp : s.phase = .hunt)
    (hrx : s.rx = .byte b :: rest) :
    step s = .next (huntByte b { s with env := s.env.rest, response := none, rx := rest }) :=
  (step_hunt h hp).trans (congrArg Host.Outcome.next (byteStep_byte hrx))

theorem step_hunt_start {s : State} {rest : List RxItem} (h : s.Reading) (hp : s.phase = .hunt)
    (hrx : s.rx = .byte 0xAA :: rest) :
    step s = .next
      { s with
        env := s.env.rest, response := none, rx := rest
        buf := s.buf.setIfInBounds 0 0xAA, count := 1, phase := .collect } :=
  (step_hunt_byte h hp hrx).trans (congrArg Host.Outcome.next (huntByte_start _))

theorem step_collect_byte {s : State} {b : Byte} {rest : List RxItem} (h : s.Reading) (hp : s.phase = .collect)
    (hrx : s.rx = .byte b :: rest) :
    step s = .next (collectByte b { s with env := s.env.rest, response := none, rx := rest }) :=
  (step_collect h hp).trans (congrArg Host.Outcome.next (byteStep_byte hrx))

theorem step_collect_store {s : State} {b : Byte} {rest : List RxItem} (h : s.Reading) (hp : s.phase = .collect)
    (hrx : s.rx = .byte b :: rest) (hc : s.count.val + 1 < 10) :
    step s = .next
      { s with
        env := s.env.rest, response := none, rx := rest
        buf := s.buf.setIfInBounds s.count.val b, count := ⟨s.count.val + 1, by omega⟩ } :=
  (step_collect_byte h hp hrx).trans (congrArg Host.Outcome.next
    (collectByte_store (s := { s with env := s.env.rest, response := none, rx := rest }) hc))

theorem step_collect_complete {s : State} {b : Byte} {rest : List RxItem} (h : s.Reading) (hp : s.phase = .collect)
    (hrx : s.rx = .byte b :: rest) (hc : ¬ s.count.val + 1 < 10) :
    step s = .next (completeRead
      { s with env := s.env.rest, response := none, rx := rest, buf := s.buf.setIfInBounds s.count.val b }) :=
  (step_collect_byte h hp hrx).trans (congrArg Host.Outcome.next (collectByte_complete hc))

/-- `buf` holds the first `k` bytes of `F` (R22). -/
def AgreesBelow (F buf : RspFrame) (k : Nat) : Prop := ∀ (j : Nat) (_ : j < 10), j < k → buf[j] = F[j]

theorem AgreesBelow.store {F buf : RspFrame} {k : Nat} (h : AgreesBelow F buf k) (hk : k < 10) :
    AgreesBelow F (buf.setIfInBounds k F[k]) (k + 1) := by
  intro j hj hjk
  by_cases hjk' : k = j
  · subst hjk'
    simp
  · rw [Vector.getElem_setIfInBounds_ne hj hjk']
    exact h j hj (by omega)

theorem AgreesBelow.eq {F buf : RspFrame} {k : Nat} (h : AgreesBelow F buf k) (hk : 10 ≤ k) : buf = F :=
  Vector.ext fun j hj => h j hj (by omega)

/-- The bytes of a frame still to come, the next one first. -/
theorem drop_frame (F : RspFrame) {k : Nat} (hk : k < 10) (rest : List RxItem) :
    (F.toList.drop k).map RxItem.byte ++ rest = .byte F[k] :: ((F.toList.drop (k + 1)).map RxItem.byte ++ rest) := by
  rw [List.drop_eq_getElem_cons (by simpa using hk)]
  simp

/-- R78, R79: in `COLLECT`, with the first `count` bytes of `F` in `buf` and the others next in the stream, the bytes
that are missing complete the READ_FRAME with `F`. -/
theorem run_collect {F : RspFrame} {rest : List RxItem} {n : Nat} {s : State} (quiet : s.env.quietFor n = true)
    (ok : s.sequencerOk = true) (hp : s.phase = .collect) (count : s.count.val + n = 10)
    (agrees : AgreesBelow F s.buf s.count.val)
    (hrx : s.rx = (F.toList.drop s.count.val).map .byte ++ rest) :
    Host.Core.run Sys2Proof.core n s =
      .next (completeRead { s with env := s.env.after n, rx := rest, buf := F }) := by
  induction n generalizing s with
  | zero =>
    obtain ⟨-, -, high⟩ := (sequencerOk_collect hp).1 ok
    omega
  | succ n ih =>
    obtain ⟨now, later⟩ := Environment.quietFor_succ.1 quiet
    obtain ⟨pending, -, high⟩ := (sequencerOk_collect hp).1 ok
    have reading : s.Reading := ⟨now, ok, by simp [hp]⟩
    have stored := agrees.store (by omega)
    rw [drop_frame F (by omega)] at hrx
    by_cases hc : s.count.val + 1 < 10
    · rw [run_succ (step_collect_store reading hp hrx hc)]
      exact ih later (sequencerOk_of_collect hp pending (Nat.le_add_left 1 _) (Nat.le_of_lt_succ hc)) hp
        (by simp only; omega) stored rfl
    · obtain ⟨hcount, rfl⟩ : s.count.val = 9 ∧ n = 0 := by omega
      have nothing_left : (F.toList.drop (s.count.val + 1)).map RxItem.byte = [] := by simp [hcount]
      rw [run_succ (step_collect_complete reading hp hrx hc), stored.eq (by omega), nothing_left]
      rfl

/-- R77 to R79: in `HUNT`, with a frame that begins with the start marker next in the stream, ten byte steps complete
the READ_FRAME with that frame and leave the rest. -/
theorem run_hunt_frame {F : RspFrame} {rest : List RxItem} {s : State} (quiet : s.env.quietFor 10 = true)
    (ok : s.sequencerOk = true) (hp : s.phase = .hunt) (start : F[0] = 0xAA)
    (hrx : s.rx = F.toList.map .byte ++ rest) :
    Host.Core.run Sys2Proof.core 10 s =
      .next (completeRead { s with env := s.env.after 10, rx := rest, buf := F }) := by
  obtain ⟨now, later⟩ := Environment.quietFor_succ.1 quiet
  obtain ⟨pending, -⟩ := (sequencerOk_hunt hp).1 ok
  have reading : s.Reading := ⟨now, ok, by simp [hp]⟩
  have taken : s.rx = .byte 0xAA :: ((F.toList.drop 1).map RxItem.byte ++ rest) := by
    rw [hrx, ← start]
    exact drop_frame F (k := 0) (by omega) rest
  have none_yet : AgreesBelow F s.buf 0 := fun j _ hj => absurd hj (Nat.not_lt_zero j)
  have first : AgreesBelow F (s.buf.setIfInBounds 0 0xAA) 1 := start ▸ none_yet.store (by omega)
  rw [run_succ (step_hunt_start reading hp taken)]
  exact run_collect later (sequencerOk_of_collect rfl pending (Nat.le_refl 1) (by simp)) rfl rfl first rfl

/-! ### A measurement response sent, read and decoded -/

section
variable (pm25 pm10 : Half) (res6 res7 : Byte)

/-- The fields a parser reads from the device's frame are those sent (R48, R92). -/
theorem pm25Raw_measurementFrame : pm25Raw (measurementFrame pm25 pm10 res6 res7) = pm25 :=
  le16_loByte_hiByte pm25

theorem pm10Raw_measurementFrame : pm10Raw (measurementFrame pm25 pm10 res6 res7) = pm10 :=
  le16_loByte_hiByte pm10

theorem validFrame_measurementFrame : validFrame (measurementFrame pm25 pm10 res6 res7) = true := by
  have checksum : respChecksum (measurementFrame pm25 pm10 res6 res7) = (measurementFrame pm25 pm10 res6 res7)[8] := rfl
  have trailer : (measurementFrame pm25 pm10 res6 res7)[9] = Config.endMarker := rfl
  simp [validFrame, checksum, trailer]

theorem exec_decodeMeasurement_free {F : RspFrame} {s : State} (free : s.pending = none) (hF : F[1] = 0xC0) :
    exec (.decodeMeasurement F) s =
      .next (s.answered (decodeStatus F) (.measurement (pm25Raw F) (pm10Raw F) (validFrame F))) := by
  refine (serve_free free).trans ?_
  rw [if_pos hF, answerDecode_eq, respond_accepted free]

/-- The device's frame is decoded with `OK` and the fields sent. -/
theorem exec_decodeMeasurement_measurementFrame {s : State} (free : s.pending = none) :
    exec (.decodeMeasurement (measurementFrame pm25 pm10 res6 res7)) s =
      .next (s.answered .ok (.measurement pm25 pm10 true)) := by
  rw [exec_decodeMeasurement_free free rfl, decodeStatus, pm25Raw_measurementFrame, pm10Raw_measurementFrame,
    validFrame_measurementFrame, if_pos rfl]

/-- The device's move is a step in which its frame reaches the end of the stream (R38). -/
theorem step_measurementResponse {s : State}
    (h : s.env.next = .frame (encode (.measurementResponse pm25 pm10 res6 res7)).bytes) :
    step s = .next { s with
      env := s.env.rest, response := none
      rx := s.rx ++ (measurementFrame pm25 pm10 res6 res7).toList.map .byte } := by
  rw [step_eq, h, moveStep_frame, decode_measurementResponse]
  rfl

end

theorem exec_readFrame_free {s : State} (free : s.pending = none) :
    exec .readFrame s = .next { s with pending := some .readFrame, phase := .hunt, count := 0 } :=
  serve_free free

/-- An idle block runs the oldest request of the port in a quiet step (R23). -/
theorem step_fetch {s : State} {w : Word} {rest : List Word} {i : Instr} (quiet : s.env.next = .quiet)
    (hp : s.phase = .idle) (ok : s.sequencerOk = true) (port : s.port = w :: rest) (hw : decodeRequest w = .ok i) :
    step s = exec i { s with env := s.env.rest, response := none, port := rest } := by
  rw [step_of_quiet quiet, blockStep_idle (s := { s with env := s.env.rest, response := none }) hp ok,
    fetch_cons (s := { s with env := s.env.rest, response := none }) port, hw]
  rfl

/-- Settles O43: the four moves and acceptances one by one, and the ten byte steps by `run_hunt_frame`. -/
theorem callerReadsAndDecodesInOneRun : Obligations.CallerReadsAndDecodesInOneRun := by
  intro pm25 pm10 res6 res7 tail s env hp ok port rx
  obtain ⟨pending, count⟩ := (sequencerOk_idle hp).1 ok
  obtain ⟨phase_, count_, buf, pending_, response, port_, rx_, delivered, env_, draws⟩ := s
  subst env hp port rx pending count
  refine ⟨measurementFrame pm25 pm10 res6 res7, ?_⟩
  -- the device sends, the caller offers READ_FRAME, the block accepts it
  rw [run_succ (step_measurementResponse pm25 pm10 res6 res7 rfl)]
  rw [run_succ (step_offer rfl)]
  rw [run_succ ((step_fetch rfl rfl rfl rfl decodeRequest_readFrame).trans (exec_readFrame_free rfl))]
  -- the ten bytes of the frame, the whole stream
  rw [run_add (j := 10) (run_hunt_frame (rest := []) rfl rfl rfl rfl (List.append_nil _).symm) 2]
  -- the caller passes the frame back, the block decodes it
  rw [run_succ (step_passBack_measurement rfl (lastFrame_append _ _ _) rfl)]
  rw [run_succ ((step_fetch rfl rfl rfl rfl (decodeRequest_decodeMeasurement _)).trans
    (exec_decodeMeasurement_measurementFrame pm25 pm10 res6 res7 rfl))]
  simp only [Host.Core.run, State.answered, completeRead_delivered, List.append_assoc]
  rfl

end Sys2Proof.Machine
end

-- Proofs, family 20_memory.md: the environment's moves, the stream in each phase, and runs without end.
section
namespace Sys2Proof

/-! ### What a request word decodes to -/

/-- An instruction the request port can hold: its operands are in range and it is not the response row (R51, R58). -/
def Instr.IsRequest (i : Instr) : Prop :=
  i.wellFormed = true ∧ ∀ pm25 pm10 res6 res7, i ≠ .measurementResponse pm25 pm10 res6 res7

theorem decodeOperation_isRequest {bs : List Byte} {i : Instr} (h : decodeOperation bs = .ok i) : i.IsRequest := by
  unfold decodeOperation at h
  split at h
  · split at h <;> cases h
    case h_1 => exact ⟨decide_eq_true (byteAt bs 2).isLt, by simp⟩
    all_goals exact ⟨rfl, by simp⟩
  · cases h

theorem decodeCommand_isRequest {code lo hi : Byte} {i : Instr} (h : decodeCommand code lo hi = .ok i) :
    i.IsRequest := by
  unfold decodeCommand at h
  split_ifs at h with _ _ _ _ _ _ sleep <;> cases h
  any_goals exact ⟨rfl, by simp⟩
  obtain ⟨-, range⟩ := sleep
  exact ⟨decide_eq_true range, by simp⟩

theorem decodeRequest_isRequest {w : Word} {i : Instr} (h : decodeRequest w = .ok i) : i.IsRequest := by
  obtain ⟨format, bytes⟩ := w
  cases format with
  | operation => exact decodeOperation_isRequest h
  | logical =>
    simp only [decodeRequest, decodeLogical] at h
    split at h
    · exact decodeCommand_isRequest h
    · cases h
  | response => cases h

end Sys2Proof

namespace Sys2Proof.Machine

/-! ### The environment's moves -/

/-- Settles O44: by the environment's own laws; a free choice is no response word by `freeMove_ne_frame`. -/
theorem environmentMovesInTurn : Obligations.EnvironmentMovesInTurn := fun m l tail n bytes =>
  ⟨⟨Environment.next_cons m l tail, Environment.rest_cons m l tail⟩,
    ⟨Environment.next_nothing, Environment.rest_nothing⟩,
    ⟨Environment.next_repeating m l, Environment.rest_repeating m l⟩,
    ⟨freeMove_ne_frame n bytes, Environment.rest_free n⟩⟩

/-- A flush leaves error indications only (R43, log entry 11). -/
theorem byte_notMem_flushInput (b : Byte) (s : State) : .byte b ∉ (flushInput s).rx := by
  simp

/-- Settles O41, move by move: each step is its move on the state without that move and without the last response. -/
theorem transportMovesOnlyTheStream : Obligations.TransportMovesOnlyTheStream := by
  intro s
  refine ⟨fun b h => ?_, fun h => ?_, fun h => ?_, fun h => ?_, step_of_quiet⟩
  · rw [step_eq, h, moveStep_byte]
    rfl
  · rw [step_eq, h, moveStep_error]
    rfl
  · rw [step_eq, h, moveStep_errorNow]
    rfl
  · refine ⟨(flushInput s).rx, List.filter_sublist, fun b => byte_notMem_flushInput b s, ?_⟩
    rw [step_eq, h, moveStep_flush]
    rfl

/-- Settles O46: a request by `step_fetch`, a response frame by the move that runs it. -/
theorem stepRunsTheDecodedInstruction : Obligations.StepRunsTheDecodedInstruction := by
  refine fun s i => ⟨fun w rest quiet hp ok port hw => step_fetch quiet hp ok port hw, fun bytes move hd => ?_⟩
  rw [step_eq, move, moveStep_frame, hd]
  rfl

/-! ### The stream while the block is idle or waits -/

theorem byteStep_nil {f : Byte → State → State} {s : State} (h : s.rx = []) : byteStep f s = s := by
  simp [byteStep, rxTake_nil h]

theorem Reading_phase {s : State} (h : s.Reading) : s.phase = .hunt ∨ s.phase = .collect := by
  obtain ⟨-, -, busy⟩ := h
  cases hp : s.phase with
  | idle => exact absurd hp busy
  | hunt => exact .inl rfl
  | collect => exact .inr rfl

/-- Settles O26: in either phase the step is a byte step over an empty stream. -/
theorem waitingReadStutters : Obligations.WaitingReadStutters := by
  intro s reading empty
  have waits (f : Byte → State → State) :=
    byteStep_nil (f := f) (s := { s with env := s.env.rest, response := none }) empty
  rcases Reading_phase reading with hunt | collect
  · rw [step_hunt reading hunt, waits]
  · rw [step_collect reading collect, waits]

/-- What a request leaves as it was: the stream and the frame buffer (R38, R69, R97), the request port and the
environment. -/
theorem exec_request_frame {i : Instr} {s t : State} (request : i.IsRequest) (ht : exec i s = .next t) :
    t.rx = s.rx ∧ t.buf = s.buf ∧ t.port = s.port ∧ t.env = s.env := by
  obtain ⟨-, noResponse⟩ := request
  have ho := exec_outcome i s
  rw [ht] at ho
  cases ho with
  | held => exact ⟨rfl, rfl, rfl, rfl⟩
  | answered => exact ⟨rfl, rfl, rfl, rfl⟩
  | hunting => exact ⟨rfl, rfl, rfl, rfl⟩
  | arrived => exact absurd rfl (noResponse _ _ _ _)

/-- A fetch leaves the stream, the frame buffer and the environment, and takes at most a word off the port. -/
theorem fetch_frame {s t : State} (ht : fetch s = .next t) :
    t.rx = s.rx ∧ t.buf = s.buf ∧ t.port = s.port.tail ∧ t.env = s.env := by
  cases hp : s.port with
  | nil =>
    rw [fetch_nil hp] at ht
    cases ht
    exact ⟨rfl, rfl, hp, rfl⟩
  | cons w rest =>
    rw [fetch_cons hp] at ht
    cases hd : decodeRequest w with
    | error why => rw [hd] at ht; cases ht
    | ok i =>
      rw [hd] at ht
      exact exec_request_frame (s := { s with port := rest }) (decodeRequest_isRequest hd) ht

/-- Settles O50: the step of an idle block is a fetch, and what it runs is a request. -/
theorem idleBlockTakesNoByte : Obligations.IdleBlockTakesNoByte := by
  intro s t quiet hp ht
  rw [step_of_quiet quiet] at ht
  by_cases ok : s.sequencerOk = true
  · rw [blockStep_idle (s := { s with env := s.env.rest, response := none }) hp ok] at ht
    obtain ⟨rx, buf, -⟩ := fetch_frame ht
    exact ⟨rx, buf⟩
  · have excluded : ¬ State.sequencerOk { s with env := s.env.rest, response := none } = true := ok
    simp [blockStep, excluded] at ht

/-! ### Runs without end -/

/-- A property that lets a state make a step and holds after it lets it make any number of steps. -/
theorem run_of_step {P : State → Prop} (progress : ∀ s, P s → ∃ t, step s = .next t ∧ P t) (n : Nat) {s : State}
    (hs : P s) : ∃ t, Host.Core.run Sys2Proof.core n s = .next t ∧ P t := by
  induction n generalizing s with
  | zero => exact ⟨s, rfl, hs⟩
  | succ n ih =>
    obtain ⟨t, ht, hPt⟩ := progress s hs
    rw [run_succ ht]
    exact ih hPt

/-! ### A READ_FRAME under endless noise -/

/-- The transport holds bytes other than the start marker and no error indication. -/
def NoiseStream (rx : List RxItem) : Prop := ∀ x ∈ rx, ∃ b : Byte, b ≠ 0xAA ∧ x = .byte b

/-- A READ_FRAME hunts over noise, and nothing but noise is to come (R40, R76). -/
structure State.HuntsNoise (s : State) : Prop where
  env : s.env.Noisy
  sequencer : s.sequencerOk = true
  phase : s.phase = .hunt
  rx : NoiseStream s.rx

/-- A step of a READ_FRAME that hunts over noise: requests join the port, the stream stays noise, and no register
changes, whichever noise move the environment makes. -/
theorem step_huntsNoise {s : State} (h : s.HuntsNoise) :
    ∃ offered rx', NoiseStream rx' ∧
      step s = .next { s with env := s.env.rest, response := none, port := s.port ++ offered, rx := rx' } := by
  obtain ⟨quiet | caller | ⟨b, hb, arrives⟩, -⟩ := Environment.Noisy_step h.env
  · have reading : s.Reading := ⟨quiet, h.sequencer, by simp [h.phase]⟩
    cases hrx : s.rx with
    | nil =>
      refine ⟨[], [], by simp [NoiseStream], ?_⟩
      rw [waitingReadStutters s reading hrx, List.append_nil, ← hrx]
    | cons x rest =>
      have noise := h.rx
      rw [hrx] at noise
      obtain ⟨⟨b, hb, rfl⟩, later⟩ := List.forall_mem_cons.1 noise
      refine ⟨[], rest, later, ?_⟩
      rw [step_hunt_byte reading h.phase hrx, huntByte_other hb, List.append_nil]
  · obtain ⟨offered, ho⟩ := moveStep_caller caller { s with env := s.env.rest, response := none }
    exact ⟨offered, s.rx, h.rx, ho⟩
  · refine ⟨[], s.rx ++ [.byte b], ?_, ?_⟩
    · exact List.forall_mem_append.2 ⟨h.rx, by simpa using hb⟩
    · rw [step_eq, arrives, moveStep_byte, List.append_nil]
      rfl

/-- `t` hunts over noise as `s` did: no register changed, nothing was delivered, and the requests of `s` are held. -/
structure State.HuntsOnFrom (s t : State) : Prop where
  hunts : t.HuntsNoise
  buf : t.buf = s.buf
  port : s.port <+: t.port
  delivered : t.delivered = s.delivered
  draws : t.draws = s.draws

/-- A READ_FRAME that hunts over noise does so in the next state (R82). -/
theorem step_huntsOnFrom {s t : State} (h : s.HuntsOnFrom t) :
    ∃ u, step t = .next u ∧ s.HuntsOnFrom u := by
  obtain ⟨offered, rx', noise, ht⟩ := step_huntsNoise h.hunts
  obtain ⟨-, noisy⟩ := Environment.Noisy_step h.hunts.env
  exact ⟨_, ht, ⟨noisy, h.hunts.sequencer, h.hunts.phase, noise⟩, h.buf, h.port.trans ⟨offered, rfl⟩,
    h.delivered, h.draws⟩

/-- Settles O28, by induction on the number of steps: each one keeps `State.HuntsOnFrom`. -/
theorem endlessNoiseNeverCompletes : Obligations.EndlessNoiseNeverCompletes := by
  intro s noisy ok hp noise n
  have start : s.HuntsOnFrom s := ⟨⟨noisy, ok, hp, noise⟩, rfl, ⟨[], List.append_nil _⟩, rfl, rfl⟩
  obtain ⟨t, run, hunts, buf, port, delivered, draws⟩ := run_of_step (fun _ => step_huntsOnFrom) n start
  obtain ⟨pending, count⟩ := (sequencerOk_hunt hunts.phase).1 hunts.sequencer
  exact ⟨t, run, hunts.phase, congrArg Fin.val count, buf, pending, port, delivered, draws, hunts.rx, hunts.env⟩

/-! ### A free environment -/

theorem Environment.Free_step {e : Environment} (h : e.Free) : (∃ n, e.next = freeMove n) ∧ e.rest.Free := by
  obtain ⟨moves, tail⟩ := e
  obtain ⟨rfl, n, rfl⟩ := h
  exact ⟨⟨n, rfl⟩, rfl, n + 1, rfl⟩

/-- Every request of the caller's free choice is one the block serves (R113). -/
theorem servable_of_requestMove {op : BitVec 2} {cmd len : Byte} {payload : Payload} {frame : RspFrame} {w : Word}
    (h : requestMove op cmd len payload frame = .offer w) : Servable w := by
  have issued : op ≠ 0b10 ∨ frame[1] = 0xC0 := by
    by_contra refused
    have quiet : requestMove op cmd len payload frame = .quiet := if_pos ((not_or.1 refused).imp_left not_not.1)
    cases quiet.symm.trans h
  obtain ⟨w', hw', decoded⟩ := requestMove_offer issued cmd len payload
  cases hw'.symm.trans h
  refine ⟨_, decoded, fun F hF => ?_⟩
  split_ifs at hF with _ _ measurement
  cases hF
  exact issued.resolve_left (not_not.2 measurement)

theorem servable_of_freeMove {n : Nat} {w : Word} (h : freeMove n = .offer w) : Servable w := by
  unfold freeMove at h
  cases hc : Config.envChoice n with
  | request op cmd len payload frame => rw [hc] at h; exact servable_of_requestMove h
  | _ => rw [hc] at h; cases h

theorem servable_decodeMeasurement {F : RspFrame} (subtype : F[1] = 0xC0) :
    Servable (encode (.decodeMeasurement F)) :=
  ⟨_, decodeRequest_decodeMeasurement F, by rintro _ ⟨⟩; exact subtype⟩

theorem servable_decodeFirmware (F : RspFrame) : Servable (encode (.decodeFirmware F)) :=
  ⟨.decodeFirmware F, (decodeOperation_fields 0x03 0 0 (Vector.replicate 12 0) F).trans rfl, by simp⟩

/-- Every word on the port is one that the block serves. -/
def ServablePort (port : List Word) : Prop := ∀ w ∈ port, Servable w

theorem ServablePort.append {port : List Word} {w : Word} (h : ServablePort port) (hw : Servable w) :
    ServablePort (port ++ [w]) :=
  List.forall_mem_append.2 ⟨h, by simpa using hw⟩

/-- What the caller passes back is a request the block serves: it looks at the subtype first (R113). -/
theorem passBack_servable {s : State} (h : ServablePort s.port) (p : Config.Parser) :
    ServablePort (passBack p s).port := by
  rcases passBack_cases p s with hs | ⟨F, -, -, subtype, hs⟩ | ⟨F, -, -, hs⟩ <;> rw [hs]
  · exact h
  · exact h.append (servable_decodeMeasurement subtype)
  · exact h.append (servable_decodeFirmware F)

theorem passBack_env (p : Config.Parser) (s : State) : (passBack p s).env = s.env := by
  rcases passBack_cases p s with hs | ⟨F, -, -, -, hs⟩ | ⟨F, -, -, hs⟩ <;> rw [hs] <;> rfl

/-- No request in range stops the machine but the DECODE_MEASUREMENT of R93. -/
theorem exec_goes_on {i : Instr} (wf : i.wellFormed = true)
    (subtype : ∀ F : RspFrame, i = .decodeMeasurement F → F[1] = 0xC0) (s : State) : ∃ t, exec i s = .next t := by
  have ho := exec_outcome i s
  generalize exec i s = o at ho
  cases ho with
  | held => exact ⟨_, rfl⟩
  | answered => exact ⟨_, rfl⟩
  | hunting => exact ⟨_, rfl⟩
  | arrived => exact ⟨_, rfl⟩
  | otherSubtype _ other => exact absurd (subtype _ rfl) other
  | sleepOperand range => simp only [Instr.wellFormed, decide_eq_true_eq] at wf; omega

theorem fetch_goes_on {s : State} (h : ServablePort s.port) : ∃ t, fetch s = .next t := by
  cases hp : s.port with
  | nil => exact ⟨s, fetch_nil hp⟩
  | cons w rest =>
    obtain ⟨i, decoded, subtype⟩ := h w (by simp [hp])
    obtain ⟨wf, -⟩ := decodeRequest_isRequest decoded
    rw [fetch_cons hp, decoded]
    exact exec_goes_on wf subtype _

@[simp] theorem huntByte_env (b : Byte) (s : State) : (huntByte b s).env = s.env := by
  unfold huntByte
  split <;> rfl

@[simp] theorem collectByte_env (b : Byte) (s : State) : (collectByte b s).env = s.env := by
  unfold collectByte
  split <;> rfl

/-- A byte step leaves the environment when taking a byte does. -/
theorem byteStep_env {f : Byte → State → State} (hf : ∀ b s, (f b s).env = s.env) (s : State) :
    (byteStep f s).env = s.env := by
  rcases byteStep_cases f s with ⟨-, hs⟩ | ⟨b, rest, -, hs⟩ | ⟨rest, -, hs⟩ <;> rw [hs]
  · exact hf b _
  · rfl

/-- The block's own step goes on where the sequencer registers fit together and the port holds servable requests. -/
theorem blockStep_goes_on {s : State} (ok : s.sequencerOk = true) (h : ServablePort s.port) :
    ∃ t, blockStep s = .next t ∧ t.env = s.env ∧ ServablePort t.port := by
  cases hp : s.phase with
  | idle =>
    obtain ⟨t, ht⟩ := fetch_goes_on h
    obtain ⟨-, -, port, env⟩ := fetch_frame ht
    exact ⟨t, (blockStep_idle hp ok).trans ht, env, port ▸ fun w hw => h w (List.mem_of_mem_tail hw)⟩
  | hunt =>
    refine ⟨_, blockStep_hunt hp ok, byteStep_env huntByte_env s, ?_⟩
    rwa [byteStep_port huntByte_port]
  | collect =>
    refine ⟨_, blockStep_collect hp ok, byteStep_env collectByte_env s, ?_⟩
    rwa [byteStep_port collectByte_port]

/-- No move stops the machine but a response word, when a request the caller issues is servable. -/
theorem moveStep_goes_on {m : EnvMove} {s : State} (ok : s.sequencerOk = true) (h : ServablePort s.port)
    (offers : ∀ w, m = .offer w → Servable w) (noFrame : ∀ bytes, m ≠ .frame bytes) :
    ∃ t, moveStep m s = .next t ∧ t.env = s.env ∧ ServablePort t.port := by
  cases m with
  | quiet => exact blockStep_goes_on ok h
  | offer w => exact ⟨_, rfl, rfl, h.append (offers w rfl)⟩
  | passBack p => exact ⟨_, rfl, passBack_env p s, passBack_servable h p⟩
  | byte b => exact ⟨_, rfl, rfl, h⟩
  | error => exact ⟨_, rfl, rfl, h⟩
  | errorNow => exact ⟨_, rfl, rfl, h⟩
  | frame bytes => exact absurd rfl (noFrame bytes)
  | flush => exact ⟨_, rfl, rfl, h⟩
  | reset => exact ⟨_, rfl, rfl, h⟩

/-- A state from which no free choice stops the machine. -/
structure State.FreelyServed (s : State) : Prop where
  inv : s.Inv
  env : s.env.Free
  port : ServablePort s.port

/-- Every step under a free environment is answered with such a state again. -/
theorem step_freelyServed {s : State} (h : s.FreelyServed) : ∃ t, step s = .next t ∧ t.FreelyServed := by
  obtain ⟨⟨n, choice⟩, free⟩ := Environment.Free_step h.env
  obtain ⟨t, ht, env, port⟩ := moveStep_goes_on (s := { s with env := s.env.rest, response := none })
    h.inv.sequencer h.port (fun w hw => servable_of_freeMove hw) (freeMove_ne_frame n)
  have hs : step s = .next t := by rw [step_eq, choice, ht]
  exact ⟨t, hs, stepKeepsInvariant s t h.inv hs, env ▸ free, port⟩

/-- Settles O45, by induction on the number of steps: each one keeps `State.FreelyServed`. -/
theorem freeEnvironmentNeverStopsTheMachine : Obligations.FreeEnvironmentNeverStopsTheMachine := by
  intro s inv free port n
  obtain ⟨t, run, inv', free', port'⟩ := run_of_step (fun _ => step_freelyServed) n ⟨inv, free, port⟩
  exact ⟨t, run, inv', free', port'⟩

end Sys2Proof.Machine
end

-- Proofs, family 30_encoding.md: the words of every format, the payload operand, the response row, the word placed to run.
section
namespace Sys2Proof

/-! ### The two bytes of a 16-bit value -/

theorem le16_eq_ofNat (lo hi : Byte) : le16 lo hi = BitVec.ofNat 16 (lo.toNat + 256 * hi.toNat) := by
  rw [← toNat_le16, BitVec.ofNat_toNat, BitVec.setWidth_eq]

theorem toNat_loByte (v : Half) : (loByte v).toNat = v.toNat % 256 := by
  simp [loByte]

theorem toNat_hiByte (v : Half) : (hiByte v).toNat = v.toNat / 256 := by
  have range := v.isLt
  simp only [hiByte, BitVec.extractLsb'_toNat, Nat.shiftRight_eq_div_pow]
  omega

theorem loByte_eq_ofNat (v : Half) : loByte v = BitVec.ofNat 8 (v.toNat % 256) := by
  rw [← toNat_loByte, BitVec.ofNat_toNat, BitVec.setWidth_eq]

theorem hiByte_eq_ofNat (v : Half) : hiByte v = BitVec.ofNat 8 (v.toNat / 256) := by
  rw [← toNat_hiByte, BitVec.ofNat_toNat, BitVec.setWidth_eq]

/-! ### Request words -/

/-- The two bits of `op` are the first byte's remainder by 4 (R51). -/
theorem extractLsb'_op_eq_iff (x : Byte) (op : BitVec 2) : x.extractLsb' 0 2 = op ↔ x.toNat % 4 = op.toNat := by
  simp [← BitVec.toNat_inj]

/-- Settles O3: the fields are those of `decodeOperation_fields`, `op` read as a number. -/
theorem everyOperationSelectDecodes : Obligations.EveryOperationSelectDecodes := by
  intro x cmd len payload frame
  refine (decodeOperation_fields x cmd len payload frame).trans ?_
  simp only [extractLsb'_op_eq_iff]
  rfl

/-- The request port's decoder is the decoder, on every word that is no response word (R51). -/
theorem decodeRequest_eq_decode {w : Word} (h : w.format ≠ .response) : decodeRequest w = decode w := by
  obtain ⟨format, bytes⟩ := w
  cases format with
  | operation => rfl
  | logical => rfl
  | response => exact absurd rfl h

/-- Settles O2: a request by `decodeRequest_isRequest`, and the response row takes every operand. -/
theorem decodedInstructionsAreWellFormed : Obligations.DecodedInstructionsAreWellFormed := by
  rintro ⟨format, bytes⟩ i h
  by_cases hf : format = .response
  · subst hf
    obtain ⟨pm25, pm10, res6, res7, rfl⟩ := Machine.decode_response h
    rfl
  · obtain ⟨wf, -⟩ := decodeRequest_isRequest ((decodeRequest_eq_decode hf).trans h)
    exact wf

/-! ### Logical words -/

/-- The operands of SET_SLEEP (R58). -/
theorem toNat_le_one_iff (b : Byte) : b.toNat ≤ 1 ↔ b = 0 ∨ b = 1 := by
  bv_omega

/-- Settles O4: each answer of the decoder is one of the six commands, and each of them is answered. -/
theorem logicalWordDecodesOnlyInRange : Obligations.LogicalWordDecodesOnlyInRange := by
  intro code lo hi i
  rw [← le16_eq_ofNat]
  constructor
  · intro h
    have decoded : decodeCommand code lo hi = .ok i := h
    unfold decodeCommand at decoded
    split_ifs at decoded with mode range query range device sleep range firmware range period range <;> cases decoded
    · exact .inl ⟨mode, range, rfl⟩
    · exact .inr (.inl ⟨query, range.2, range.1, rfl⟩)
    · exact .inr (.inr (.inl ⟨device, rfl⟩))
    · exact .inr (.inr (.inr (.inl ⟨sleep, range.1, (toNat_le_one_iff lo).1 range.2, rfl⟩)))
    · exact .inr (.inr (.inr (.inr (.inl ⟨firmware, range.2, range.1, rfl⟩))))
    · exact .inr (.inr (.inr (.inr (.inr ⟨period, range, rfl⟩))))
  · rintro (⟨rfl, rfl, rfl⟩ | ⟨rfl, rfl, rfl, rfl⟩ | ⟨rfl, rfl⟩ | ⟨rfl, rfl, sleep, rfl⟩ | ⟨rfl, rfl, rfl, rfl⟩ |
      ⟨rfl, rfl, rfl⟩)
    · rfl
    · rfl
    · rfl
    · exact if_pos ⟨rfl, (toNat_le_one_iff lo).2 sleep⟩
    · rfl
    · rfl

/-! ### Decode and encode agree -/

/-- A payload length in range survives its `PLEN_W` bits (R54). -/
theorem decode_encode_encode {len : Nat} (fits : len < 256) (cmd : Byte) (payload : Payload) :
    decode (encode (.encode cmd len payload)) = .ok (.encode cmd len payload) := by
  have length : (BitVec.ofNat 8 len).toNat = len := (BitVec.toNat_ofNat len 8).trans (Nat.mod_eq_of_lt fits)
  exact (decodeOperation_fields 0x00 cmd (BitVec.ofNat 8 len) payload (Vector.replicate 10 0)).trans (by simp [length])

/-- Settles O1, constructor by constructor: request words by their fields, logical words by the codes and ranges of
`logicalWordDecodesOnlyInRange`, the response word by its bytes. -/
theorem decodeOfEncodeIsIdentity : Obligations.DecodeOfEncodeIsIdentity := by
  intro i wf
  cases i with
  | encode cmd len payload => exact decode_encode_encode (of_decide_eq_true wf) cmd payload
  | readFrame => exact decodeRequest_readFrame
  | decodeMeasurement F => exact decodeRequest_decodeMeasurement F
  | decodeFirmware F => exact (decodeOperation_fields 0x03 0 0 (Vector.replicate 12 0) F).trans rfl
  | setMode m => exact (logicalWordDecodesOnlyInRange _ m 0 _).2 (.inl ⟨rfl, rfl, rfl⟩)
  | queryData => exact (logicalWordDecodesOnlyInRange _ 0 0 _).2 (.inr (.inl ⟨rfl, rfl, rfl, rfl⟩))
  | setDeviceId id =>
    refine (logicalWordDecodesOnlyInRange _ (loByte id) (hiByte id) _).2 (.inr (.inr (.inl ⟨rfl, ?_⟩)))
    rw [← le16_eq_ofNat, le16_loByte_hiByte]
  | setSleep v =>
    have range : v = 0 ∨ v = 1 := (toNat_le_one_iff v).1 (of_decide_eq_true wf)
    exact (logicalWordDecodesOnlyInRange _ v 0 _).2 (.inr (.inr (.inr (.inl ⟨rfl, rfl, range, rfl⟩))))
  | queryFirmware =>
    exact (logicalWordDecodesOnlyInRange _ 0 0 _).2 (.inr (.inr (.inr (.inr (.inl ⟨rfl, rfl, rfl, rfl⟩)))))
  | setWorkingPeriod t =>
    exact (logicalWordDecodesOnlyInRange _ t 0 _).2 (.inr (.inr (.inr (.inr (.inr ⟨rfl, rfl, rfl⟩)))))
  | measurementResponse pm25 pm10 res6 res7 => exact decode_measurementResponse pm25 pm10 res6 res7

/-- Settles O5: the request words as words of their fields, the logical word by its code, the response word as the
encoding of its instruction. -/
theorem sampleWordsDecode : Obligations.SampleWordsDecode :=
  ⟨decode_encode_encode (len := 12) (by decide) 0x05 #v[0, 0, 0, 0, 0, 0, 0, 0, 0, 0, 0x34, 0x12],
    decodeRequest_decodeMeasurement #v[0xAA, 0xC0, 0x64, 0x00, 0xC8, 0x00, 0x00, 0x00, 0x2C, 0xAB],
    Machine.test_decode_setDeviceId,
    decode_measurementResponse 100 200 0 0⟩

end Sys2Proof

namespace Sys2Proof.Machine

/-! ### The payload operand -/

/-- Settles O7: a byte of the padded payload by `padPayload_getElem`, a longer payload by `encodeCommand_error`. -/
theorem payloadIsPaddedNeverTruncated : Obligations.PayloadIsPaddedNeverTruncated := by
  refine fun p => ⟨fun _ k hk => ?_, fun long cmd => encodeCommand_error long⟩
  rw [padPayload_getElem p k hk]
  split
  next inside => exact List.getD_eq_getElem _ _ inside
  next outside => exact List.getD_eq_default _ _ (Nat.le_of_not_lt outside)

/-- Within the bus the operand is its first `len` bytes (R54). -/
theorem payloadOperand_eq_take {len : Nat} (h : len ≤ 12) (bus : Payload) :
    payloadOperand len bus = bus.toList.take len := by
  rw [payloadOperand, List.take_append_of_le_length (by simpa using h)]

/-- Two buses that agree below the length carry the same operand (R54). -/
theorem payloadOperand_congr {len : Nat} {p p' : Payload} (h : len ≤ 12)
    (agree : ∀ (k : Nat) (_ : k < 12), k < len → p[k] = p'[k]) : payloadOperand len p = payloadOperand len p' := by
  rw [payloadOperand_eq_take h, payloadOperand_eq_take h]
  refine List.ext_getElem (by simp) fun k hk _ => ?_
  simp only [List.length_take, Vector.length_toList] at hk
  simpa using agree k (by omega) (by omega)

theorem exec_encode (cmd : Byte) (len : Nat) (bus : Payload) (s : State) :
    exec (.encode cmd len bus) s = serve (.encode cmd len bus) (answerEncode cmd (payloadOperand len bus)) s := rfl

/-- A served ENCODE answers by its command and its operand alone: what the port held for it is gone with the answer. -/
theorem serve_answerEncode (r r' : Request) (cmd : Byte) (p : List Byte) (s : State) :
    serve r (answerEncode cmd p) s = serve r' (answerEncode cmd p) s := by
  by_cases free : s.pending = none
  · simp only [serve_free free, answerEncode_eq, respond_accepted free]
  · rw [serve_busy free, serve_busy free]

/-- Over 12 bytes ENCODE's answer is the same for every payload (R53, R101). -/
theorem answerEncode_long {cmd : Byte} {p : List Byte} (h : 12 < p.length) (s : State) :
    answerEncode cmd p s = .next (respond .invalidArgument .none s) := by
  rw [answerEncode_eq, if_neg (Nat.not_le.2 h)]

theorem answerEncode_payloadOperand_congr {len : Nat} {p p' : Payload} (cmd : Byte)
    (agree : len ≤ 12 → ∀ (k : Nat) (_ : k < 12), k < len → p[k] = p'[k]) :
    answerEncode cmd (payloadOperand len p) = answerEncode cmd (payloadOperand len p') := by
  by_cases h : len ≤ 12
  · rw [payloadOperand_congr h (agree h)]
  · have long (q : Payload) : 12 < (payloadOperand len q).length := by rw [payloadOperand_length]; omega
    exact funext fun s => (answerEncode_long (long p) s).trans (answerEncode_long (long p') s).symm

/-- Settles O18: the operands agree, or only their length is read; the bus itself is never read again. -/
theorem payloadBytesBeyondLengthIgnored : Obligations.PayloadBytesBeyondLengthIgnored := by
  intro cmd len p p' s agree
  rw [exec_encode, exec_encode, answerEncode_payloadOperand_congr cmd agree]
  exact serve_answerEncode _ _ _ _ _

/-! ### The logical commands -/

/-- The ENCODE a logical command expands to, with any bus that carries its payload (R54, R58). -/
theorem serveCommand_eq_encode {p : List Byte} {bus : Payload} (carries : payloadOperand p.length bus = p) (cmd : Byte)
    (s : State) : serveCommand cmd p s = exec (.encode cmd p.length bus) s := by
  rw [exec_encode, carries]
  exact serve_answerEncode _ _ _ _ _

theorem payloadOperand_zero (bus : Payload) : payloadOperand 0 bus = [] :=
  payloadOperand_eq_take (Nat.zero_le 12) bus

theorem payloadOperand_two {bus : Payload} (one : bus[0] = 1) : payloadOperand 2 bus = ([1, bus[1]] : List Byte) := by
  rw [payloadOperand_eq_take (by omega), payload_toList, one]
  rfl

/-- A bus of ten zero bytes and two more carries the payload of the ID those two are (R65). -/
theorem payloadOperand_deviceId {bus : Payload} (zeros : ∀ (k : Nat) (_ : k < 10), bus[k] = 0) :
    payloadOperand 12 bus = deviceIdPayload (le16 bus[10] bus[11]) := by
  rw [payloadOperand_eq_take (Nat.le_refl 12), deviceIdPayload, loByte_le16, hiByte_le16]
  refine List.ext_getElem (by simp) fun k hk _ => ?_
  simp only [List.length_take, Vector.length_toList] at hk
  rw [List.getElem_take, Vector.getElem_toList]
  by_cases low : k < 10
  · rw [List.getElem_append_left (by simpa using low), List.getElem_replicate]
    exact zeros k low
  · obtain rfl | rfl : k = 10 ∨ k = 11 := by omega
    all_goals rfl

theorem exec_setSleep_inRange {v : Byte} (range : v.toNat ≤ 1) (s : State) :
    exec (.setSleep v) s = serveCommand Config.codeSleep (sleepPayload v) s := if_pos range

theorem exec_setSleep_outOfRange {v : Byte} (range : 1 < v.toNat) (s : State) :
    exec (.setSleep v) s = .refused .sleepOperand := if_neg (Nat.not_le.2 range)

/-- Settles O17: each command is served with its payload, which the bus carries. -/
theorem logicalCommandsExpandToEncode : Obligations.LogicalCommandsExpandToEncode := by
  intro bus s
  refine ⟨fun one => ?_, ?_, fun zeros => ?_, fun one range => ?_, fun range => exec_setSleep_outOfRange range s, ?_,
    fun one => ?_⟩
  · exact serveCommand_eq_encode (p := modePayload bus[1]) (payloadOperand_two one) _ s
  · exact serveCommand_eq_encode (p := []) (payloadOperand_zero bus) _ s
  · rw [← le16_eq_ofNat]
    exact serveCommand_eq_encode (p := deviceIdPayload (le16 bus[10] bus[11])) (payloadOperand_deviceId zeros) _ s
  · rw [exec_setSleep_inRange range]
    exact serveCommand_eq_encode (p := sleepPayload bus[1]) (payloadOperand_two one) _ s
  · exact serveCommand_eq_encode (p := []) (payloadOperand_zero bus) _ s
  · exact serveCommand_eq_encode (p := workingPeriodPayload bus[1]) (payloadOperand_two one) _ s

/-! ### The response row -/

theorem exec_measurementResponse (pm25 pm10 : Half) (res6 res7 : Byte) (s : State) :
    exec (.measurementResponse pm25 pm10 res6 res7) s =
      .next (arrive ((measurementFrame pm25 pm10 res6 res7).toList.map .byte) s) := rfl

/-- The device's frame with its bytes as numbers (R48, R90). -/
theorem measurementFrame_toList (pm25 pm10 : Half) (res6 res7 : Byte) :
    (measurementFrame pm25 pm10 res6 res7).toList =
      [0xAA, 0xC0, BitVec.ofNat 8 (pm25.toNat % 256), BitVec.ofNat 8 (pm25.toNat / 256),
        BitVec.ofNat 8 (pm10.toNat % 256), BitVec.ofNat 8 (pm10.toNat / 256), res6, res7,
        BitVec.ofNat 8 (pm25.toNat % 256 + pm25.toNat / 256 + pm10.toNat % 256 + pm10.toNat / 256
          + res6.toNat + res7.toNat), 0xAB] := by
  have sum : sumBytes [loByte pm25, hiByte pm25, loByte pm10, hiByte pm10, res6, res7] =
      pm25.toNat % 256 + pm25.toNat / 256 + pm10.toNat % 256 + pm10.toNat / 256 + res6.toNat + res7.toNat := by
    simp only [sumBytes_cons, sumBytes_nil, toNat_loByte, toNat_hiByte]
    omega
  rw [← sum]
  simp only [← loByte_eq_ofNat, ← hiByte_eq_ofNat]
  rfl

/-- Settles O38: the arrival of the bytes of `measurementFrame_toList`. -/
theorem measurementResponseArrivesInOrder : Obligations.MeasurementResponseArrivesInOrder := by
  intro pm25 pm10 res6 res7 s
  rw [exec_measurementResponse, measurementFrame_toList]
  rfl

/-- Settles O39: the frame arrives, `run_hunt_frame` takes it as the whole stream, and it decodes to what was sent. -/
theorem measurementRoundTrip : Obligations.MeasurementRoundTrip := by
  intro pm25 pm10 res6 res7 s quiet hp ok rx
  obtain ⟨free, -⟩ := (sequencerOk_idle hp).1 ok
  have arrived : (arrive ((measurementFrame pm25 pm10 res6 res7).toList.map .byte) s).rx =
      (measurementFrame pm25 pm10 res6 res7).toList.map .byte ++ [] := by
    rw [arrive_rx, rx, List.nil_append, List.append_nil]
  exact ⟨measurementFrame pm25 pm10 res6 res7, _, _, _, exec_measurementResponse pm25 pm10 res6 res7 s,
    exec_readFrame_free free, run_hunt_frame quiet rfl rfl rfl arrived, rfl, rfl, rfl,
    exec_decodeMeasurement_measurementFrame pm25 pm10 res6 res7 rfl⟩

/-! ### A word placed to run next -/

/-- The step after a word is placed runs the instruction it decodes to: a request by a fetch, a response word by the
environment's move. -/
theorem step_offerWord {w : Word} {i : Instr} (decoded : decode w = .ok i) (s : State) :
    step (offerWord w s) = exec i
      (if w.format = .response then { s with response := none }
       else { s with phase := .idle, count := 0, pending := none, response := none }) := by
  obtain ⟨format, bytes⟩ := w
  cases format with
  | operation => exact step_fetch rfl rfl rfl rfl decoded
  | logical => exact step_fetch rfl rfl rfl rfl decoded
  | response =>
    obtain ⟨-, runsFrame⟩ := stepRunsTheDecodedInstruction (offerWord ⟨.response, bytes⟩ s) i
    exact runsFrame bytes rfl decoded

theorem decode_tableWord {nbits w : Nat} {i : Instr} (h : decodeTableWord nbits w = some i) :
    decode (tableWord nbits w) = .ok i := by
  unfold decodeTableWord at h
  split at h
  next decoded => rw [decoded, Option.some.inj h]
  · cases h

/-- Settles O47: the table's word is one that decodes to `i`, of the format the table gives it. -/
theorem placedWordRunsNext : Obligations.PlacedWordRunsNext :=
  fun s _ _ _ h => step_offerWord (decode_tableWord h) s

end Sys2Proof.Machine
end

-- Proofs, family 40_encoder.md: the command checksum, the answer of ENCODE, the frames of the logical commands.
section
namespace Sys2Proof.Machine

/-! ### Sums of bytes -/

theorem sumBytes_replicate (n : Nat) (b : Byte) : sumBytes (List.replicate n b) = n * b.toNat := by
  simp [sumBytes]

theorem sumBytes_le (bs : List Byte) : sumBytes bs ≤ 255 * bs.length := by
  induction bs with
  | nil => simp
  | cons b bs ih =>
    have range := b.isLt
    simp only [sumBytes_cons, List.length_cons]
    omega

/-- Adding bytes up in 8 bits, with wrap-around, is their sum reduced once. -/
theorem foldl_add_eq_ofNat (bs : List Byte) (a : Byte) : bs.foldl (· + ·) a = a + BitVec.ofNat 8 (sumBytes bs) := by
  induction bs generalizing a with
  | nil => simp
  | cons b bs ih => rw [List.foldl_cons, ih, sumBytes_cons, BitVec.ofNat_add, BitVec.ofNat_toNat, BitVec.setWidth_eq,
      BitVec.add_assoc]

/-! ### The command checksum -/

/-- R61: subtracting 2 is adding `0xFE` in 8 bits. -/
theorem cmdChecksum_eq_add (cmd : Byte) (q : Payload) :
    cmdChecksum cmd q = cmd + BitVec.ofNat 8 (sumBytes q.toList) + 0xFE := by
  apply BitVec.eq_of_toNat_eq
  simp only [toNat_cmdChecksum, BitVec.toNat_add, BitVec.toNat_ofNat, BitVec.reduceToNat]
  omega

/-- R60 with the mathematical remainder of the value in −2 to 3313 (R70). -/
theorem cmdChecksum_emod (cmd : Byte) (q : Payload) :
    ((cmdChecksum cmd q).toNat : Int) = ((sumBytes q.toList : Int) + cmd.toNat - 2) % 256 := by
  rw [toNat_cmdChecksum]
  omega

/-- R53: padding puts zeros behind the payload and moves no byte. -/
theorem padPayload_eq_append {p : List Byte} (h : p.length ≤ 12) :
    (padPayload p).toList = p ++ List.replicate (12 - p.length) 0 := by
  refine List.ext_getElem (by simpa using (Nat.add_sub_of_le h).symm) fun k hk _ => ?_
  rw [Vector.length_toList] at hk
  rw [Vector.getElem_toList, padPayload_getElem p k hk, List.getElem_append]
  split
  next inside => exact List.getD_eq_getElem p 0 inside
  next outside => rw [List.getD_eq_default p 0 (Nat.le_of_not_lt outside), List.getElem_replicate]

theorem sumBytes_padPayload {p : List Byte} (h : p.length ≤ 12) : sumBytes (padPayload p).toList = sumBytes p := by
  simp [padPayload_eq_append h, sumBytes_replicate]

/-- Settles O8: the remainder of `cmdChecksum_emod`, and zeros behind the payload. -/
theorem commandChecksumIsSumMinusTwo : Obligations.CommandChecksumIsSumMinusTwo :=
  ⟨cmdChecksum_emod, fun _ => sumBytes_padPayload⟩

/-- Settles O9: both wrapping sums are sums reduced once, and the two reserved bytes of the window add `0xFE`. -/
theorem commandChecksumEquivalentForms : Obligations.CommandChecksumEquivalentForms := by
  intro cmd q
  constructor
  · rw [foldl_add_eq_ofNat, zero_add, cmdChecksum_eq_add]
  · have reserved : BitVec.ofNat 8 (sumBytes [0xFF, 0xFF]) = 0xFE := rfl
    rw [cmdFrameOf_window, foldl_add_eq_ofNat, zero_add, sumBytes_cons, sumBytes_append, BitVec.ofNat_add,
      BitVec.ofNat_add, reserved, BitVec.ofNat_toNat, BitVec.setWidth_eq, ← BitVec.add_assoc, cmdChecksum_eq_add]

theorem cmdFrameOf_checksum (cmd : Byte) (q : Payload) : (cmdFrameOf cmd q)[17] = cmdChecksum cmd q := rfl

/-- R70: the range of the value the checksum reduces. -/
theorem unreducedChecksum_range (cmd : Byte) (q : Payload) :
    -2 ≤ (sumBytes q.toList : Int) + cmd.toNat - 2 ∧ (sumBytes q.toList : Int) + cmd.toNat - 2 ≤ 3313 := by
  have command := cmd.isLt
  have payload := sumBytes_le q.toList
  rw [Vector.length_toList] at payload
  omega

/-- Settles O10: the range by the sizes of the twelve payload bytes and the command, the ends by evaluation. -/
theorem unreducedChecksumRange : Obligations.UnreducedChecksumRange := by
  refine ⟨fun cmd q => ?_, by decide, by decide, by decide, by decide⟩
  obtain ⟨low, high⟩ := unreducedChecksum_range cmd q
  rw [cmdFrameOf_checksum]
  exact ⟨_, rfl, low, high, cmdChecksum_emod cmd q, cmdChecksum_emod cmd q⟩

/-! ### The answer of ENCODE -/

/-- R62: what an accepted ENCODE answers, by its operands alone. -/
def encodeResponse (cmd : Byte) (len : Nat) (payload : Payload) : Response :=
  if len ≤ 12 then ⟨.ok, .cmdFrame (cmdFrameOf cmd (padPayload (payloadOperand len payload)))⟩
  else ⟨.invalidArgument, .none⟩

/-- With nothing pending, ENCODE answers `encodeResponse` and changes nothing else. -/
theorem exec_encode_free {s : State} (free : s.pending = none) (cmd : Byte) (len : Nat) (payload : Payload) :
    exec (.encode cmd len payload) s =
      .next (s.answered (encodeResponse cmd len payload).status (encodeResponse cmd len payload).result) := by
  rw [exec_encode, serve_free free, answerEncode_eq, payloadOperand_length, encodeResponse]
  split <;> rw [respond_accepted free]

/-- Settles O19: the response is `encodeResponse`. -/
theorem encodeIsPure : Obligations.EncodeIsPure :=
  fun cmd len payload => ⟨encodeResponse cmd len payload, fun _ free => exec_encode_free free cmd len payload⟩

/-- The padded operand byte by byte: the bus below the length, zero from there on (R53, R54). -/
theorem padPayload_payloadOperand_getElem {len : Nat} (h : len ≤ 12) (payload : Payload) (k : Nat) (hk : k < 12) :
    (padPayload (payloadOperand len payload))[k] = if k < len then payload[k] else 0x00 := by
  rw [padPayload_getElem _ k hk]
  split
  next inside =>
    rw [List.getD_eq_getElem _ _ (by rwa [payloadOperand_length])]
    simp [payloadOperand_eq_take h]
  next outside => exact List.getD_eq_default _ _ (by rw [payloadOperand_length]; omega)

/-- The bytes 3 to 14 of a command frame are its padded payload (R45). -/
theorem cmdFrameOf_payloadWindow (cmd : Byte) (q : Payload) :
    ((cmdFrameOf cmd q).toList.drop 3).take 12 = q.toList := by
  rw [cmdFrameOf_toList]
  exact List.take_left' Vector.length_toList

/-- Settles O6: both answers are `exec_encode_free`, and the bytes of the frame are those of its layout. -/
theorem encodeAnswersFrameOrInvalidArgument : Obligations.EncodeAnswersFrameOrInvalidArgument := by
  intro cmd len payload s free
  have answer := exec_encode_free free cmd len payload
  refine ⟨fun fits => ?_, fun long => ?_⟩
  · rw [encodeResponse, if_pos fits] at answer
    refine ⟨_, answer, rfl, rfl, rfl, fun k hk => ?_, rfl, rfl, ?_, rfl⟩
    · rw [cmdFrameOf_payload _ _ k hk, padPayload_payloadOperand_getElem fits payload k hk]
    · rw [cmdFrameOf_payloadWindow, cmdFrameOf_checksum, cmdChecksum_emod]
  · rwa [encodeResponse, if_neg (Nat.not_le.2 long)] at answer

/-! ### The frames of the logical commands -/

theorem cmdChecksum_padPayload {p : List Byte} (h : p.length ≤ 12) (cmd : Byte) :
    cmdChecksum cmd (padPayload p) = cmd + BitVec.ofNat 8 (sumBytes p) + 0xFE := by
  rw [cmdChecksum_eq_add, sumBytes_padPayload h]

/-- The frame of a payload, byte by byte (R45, R53). -/
theorem cmdFrameOf_padPayload (cmd : Byte) (p : List Byte) : cmdFrameOf cmd (padPayload p) =
    #v[0xAA, 0xB4, cmd, p.getD 0 0, p.getD 1 0, p.getD 2 0, p.getD 3 0, p.getD 4 0, p.getD 5 0, p.getD 6 0, p.getD 7 0,
      p.getD 8 0, p.getD 9 0, p.getD 10 0, p.getD 11 0, 0xFF, 0xFF, cmdChecksum cmd (padPayload p), 0xAB] := by
  simp only [cmdFrameOf, padPayload_getElem]

/-- The frame of a command without an operand (R64, R67). -/
theorem serveCommand_nil_free {s : State} (free : s.pending = none) (cmd : Byte) :
    serveCommand cmd [] s = .next (s.answered .ok (.cmdFrame
      #v[0xAA, 0xB4, cmd, 0, 0, 0, 0, 0, 0, 0, 0, 0, 0, 0, 0, 0xFF, 0xFF, cmd + 0xFE, 0xAB])) := by
  have checksum : cmdChecksum cmd (padPayload []) = cmd + 0xFE := by simp [cmdChecksum_padPayload]
  rw [serveCommand_free free (by simp), cmdFrameOf_padPayload, checksum]
  rfl

/-- The frame of a command with the payload `1, v` (R63, R66, R68): the 1 and the "minus 2" make `0xFF`. -/
theorem serveCommand_one_free {s : State} (free : s.pending = none) (cmd v : Byte) :
    serveCommand cmd [1, v] s = .next (s.answered .ok (.cmdFrame
      #v[0xAA, 0xB4, cmd, 0x01, v, 0, 0, 0, 0, 0, 0, 0, 0, 0, 0, 0xFF, 0xFF, v + (cmd + 0xFF), 0xAB])) := by
  have checksum : cmdChecksum cmd (padPayload [1, v]) = v + (cmd + 0xFF) := by
    rw [cmdChecksum_padPayload (by simp)]
    simp only [sumBytes_cons, sumBytes_nil]
    bv_omega
  rw [serveCommand_free free (by simp), cmdFrameOf_padPayload, checksum]
  rfl

/-- The ENCODE that carries `1, v` (R58), as the command that expands to it. -/
theorem serveCommand_one_eq_encode (cmd v : Byte) (s : State) :
    serveCommand cmd [1, v] s = exec (.encode cmd 2 #v[1, v, 0, 0, 0, 0, 0, 0, 0, 0, 0, 0]) s :=
  have carries : payloadOperand 2 #v[1, v, 0, 0, 0, 0, 0, 0, 0, 0, 0, 0] = [1, v] := payloadOperand_two rfl
  serveCommand_eq_encode (p := [1, v]) carries cmd s

/-- The checksum of SET_DEVICE_ID (R65): code 5 less 2, and the two bytes of the ID. -/
theorem cmdChecksum_deviceId (id : Half) : cmdChecksum Config.codeDeviceId (padPayload (deviceIdPayload id)) =
    BitVec.ofNat 8 (id.toNat % 256 + id.toNat / 256 + 3) := by
  have sum : sumBytes (deviceIdPayload id) = id.toNat % 256 + id.toNat / 256 := by
    simp [deviceIdPayload, toNat_loByte, toNat_hiByte]
  rw [cmdChecksum_padPayload (by simp [deviceIdPayload]), sum]
  bv_omega

/-- The frame of SET_DEVICE_ID (R65), the ID's two bytes as numbers. -/
theorem serveCommand_deviceId_free {s : State} (free : s.pending = none) (id : Half) :
    serveCommand Config.codeDeviceId (deviceIdPayload id) s = .next (s.answered .ok (.cmdFrame
      #v[0xAA, 0xB4, 0x05, 0, 0, 0, 0, 0, 0, 0, 0, 0, 0,
        BitVec.ofNat 8 (id.toNat % 256), BitVec.ofNat 8 (id.toNat / 256), 0xFF, 0xFF,
        BitVec.ofNat 8 (id.toNat % 256 + id.toNat / 256 + 3), 0xAB])) := by
  rw [serveCommand_free free (by simp [deviceIdPayload]), cmdFrameOf_padPayload, cmdChecksum_deviceId,
    ← loByte_eq_ofNat id, ← hiByte_eq_ofNat id]
  rfl

/-- Settles O11: the frame of `1, m`, which the bus carries. -/
theorem setModeAnswersFrame : Obligations.SetModeAnswersFrame := fun m s free =>
  ⟨serveCommand_one_free free 0x02 m, serveCommand_one_eq_encode 0x02 m s⟩

/-- Settles O12: the frame without an operand. -/
theorem queryDataAnswersFrame : Obligations.QueryDataAnswersFrame := fun s free =>
  ⟨serveCommand_nil_free free 0x04, serveCommand_eq_encode (p := []) (payloadOperand_zero _) _ s⟩

/-- Settles O13: the frame of `serveCommand_deviceId_free`, and a bus of ten zeros and the ID's two bytes. -/
theorem setDeviceIdAnswersFrame : Obligations.SetDeviceIdAnswersFrame := by
  intro id s free
  refine ⟨serveCommand_deviceId_free free id, ?_⟩
  exact serveCommand_eq_encode (p := deviceIdPayload id) rfl _ s

/-- Settles O14: in range the frame of `1, v`, which the ENCODE with that payload answers for every `v`. -/
theorem setSleepAnswersFrameInRange : Obligations.SetSleepAnswersFrameInRange := by
  intro v s free
  refine ⟨fun range => ?_, fun range => exec_setSleep_outOfRange range s, ?_⟩
  · rw [exec_setSleep_inRange range]
    exact serveCommand_one_free free 0x06 v
  · rw [← serveCommand_one_eq_encode]
    exact serveCommand_one_free free 0x06 v

/-- Settles O15: the frame without an operand. -/
theorem queryFirmwareAnswersFrame : Obligations.QueryFirmwareAnswersFrame := fun s free =>
  ⟨serveCommand_nil_free free 0x07, serveCommand_eq_encode (p := []) (payloadOperand_zero _) _ s⟩

/-- Settles O16: the frame of `1, t`, which the bus carries. -/
theorem setWorkingPeriodAnswersFrame : Obligations.SetWorkingPeriodAnswersFrame := fun t s free =>
  ⟨serveCommand_one_free free 0x08 t, serveCommand_one_eq_encode 0x08 t s⟩

end Sys2Proof.Machine
end

-- Proofs, family 41_resync.md: the byte steps one by one, and runs of a READ_FRAME over noise, a frame, a short stream.
section
namespace Sys2Proof.Machine

/-! ### The byte steps -/

/-- Settles O20: nothing is pending, so the request is accepted. -/
theorem readFrameBeginsHunting : Obligations.ReadFrameBeginsHunting := fun _ free => exec_readFrame_free free

/-- Settles O21: the byte step of `HUNT`, on a byte that is not the start marker. -/
theorem huntDiscardsOtherBytes : Obligations.HuntDiscardsOtherBytes := by
  intro s b rest reading hp hrx hb
  rw [step_hunt_byte reading hp hrx, huntByte_other hb]

/-- Settles O22: the byte step of `HUNT` on the start marker, which writes `buf[0]` alone. -/
theorem huntStartMarkerBeginsFrame : Obligations.HuntStartMarkerBeginsFrame := by
  intro s rest reading hp hrx
  refine ⟨_, step_hunt_start reading hp hrx, rfl, Vector.getElem_setIfInBounds_self _, fun j hj above => ?_⟩
  exact Vector.getElem_setIfInBounds_ne hj above.symm

/-- Settles O23: the byte step of `COLLECT` below the tenth byte, which writes `buf[count]` alone. -/
theorem collectStoresByte : Obligations.CollectStoresByte := by
  intro s b rest reading hp hrx low
  refine ⟨_, step_collect_store reading hp hrx (by omega), rfl, rfl, fun j hj => ?_⟩
  simp only [Vector.getElem_setIfInBounds, eq_comm]

/-- Settles O24: the byte step of `COLLECT` on the tenth byte stores it and completes the READ_FRAME. -/
theorem collectCompletesFrame : Obligations.CollectCompletesFrame := by
  intro s b rest reading hp hrx nine
  refine ⟨s.buf.setIfInBounds 9 b, Vector.getElem_setIfInBounds_self _, fun j hj => ?_, ?_⟩
  · exact Vector.getElem_setIfInBounds_ne (by omega) (by omega)
  · rw [step_collect_complete reading hp hrx (by omega), nine]
    rfl

theorem byteStep_err {f : Byte → State → State} {s : State} {rest : List RxItem} (h : s.rx = .err :: rest) :
    byteStep f s =
      failRead { s with rx := rest.drop (Config.errorDraw s.draws), draws := s.draws + 1 } := by
  simp [byteStep, rxTake_err h]

/-- Settles O25: in either phase the byte step meets the error and ends the READ_FRAME. -/
theorem transportErrorEndsRead : Obligations.TransportErrorEndsRead := by
  intro s rest reading hrx
  have fails (f : Byte → State → State) :=
    byteStep_err (f := f) (s := { s with env := s.env.rest, response := none }) hrx
  refine ⟨Config.errorDraw s.draws, ?_⟩
  rcases Reading_phase reading with hunt | collect
  · rw [step_hunt reading hunt, fails]
    rfl
  · rw [step_collect reading collect, fails]
    rfl

/-! ### An environment that is quiet for a while -/

theorem Environment.after_add (e : Environment) (j k : Nat) : e.after (j + k) = (e.after j).after k := by
  induction j generalizing e with
  | zero => rw [Nat.zero_add]; rfl
  | succ j ih => rw [Nat.succ_add]; exact ih e.rest

theorem Environment.quietFor_add {e : Environment} {j k : Nat} :
    e.quietFor (j + k) = true ↔ e.quietFor j = true ∧ (e.after j).quietFor k = true := by
  induction j generalizing e with
  | zero => simp [Environment.quietFor, Environment.after]
  | succ j ih => rw [Nat.succ_add, Environment.quietFor_succ, ih, Environment.quietFor_succ, and_assoc]; rfl

theorem Environment.Quiet.quietFor {e : Environment} (h : e.Quiet) (n : Nat) : e.quietFor n = true := by
  induction n generalizing e with
  | zero => rfl
  | succ n ih =>
    obtain ⟨now, -, later⟩ := Environment.Quiet_step h
    exact Environment.quietFor_succ.2 ⟨now, ih later⟩

/-! ### A READ_FRAME over noise and a frame -/

/-- Bytes other than the start marker are noise. -/
theorem noiseStream_map_byte {bs : List Byte} (h : ∀ b ∈ bs, b ≠ 0xAA) : NoiseStream (bs.map .byte) := by
  intro x hx
  obtain ⟨b, hb, rfl⟩ := List.mem_map.1 hx
  exact ⟨b, h b hb, rfl⟩

/-- R76, R82: in `HUNT`, with noise first in the stream, `n` quiet steps take its first `n` items, or all there are,
and change no register. -/
theorem run_hunt_noise {n : Nat} {s : State} (quiet : s.env.quietFor n = true) (ok : s.sequencerOk = true)
    (hp : s.phase = .hunt) (noise : NoiseStream (s.rx.take n)) :
    ∃ driven, Host.Core.run Sys2Proof.core n s =
      .next { s with env := s.env.after n, rx := s.rx.drop n, response := driven } := by
  induction n generalizing s with
  | zero => exact ⟨s.response, rfl⟩
  | succ n ih =>
    obtain ⟨now, later⟩ := Environment.quietFor_succ.1 quiet
    have reading : s.Reading := ⟨now, ok, by simp [hp]⟩
    cases hrx : s.rx with
    | nil =>
      rw [run_succ (waitingReadStutters s reading hrx)]
      obtain ⟨driven, run⟩ :=
        ih (s := { s with env := s.env.rest, response := none }) later ok hp (by simp [hrx, NoiseStream])
      refine ⟨driven, run.trans ?_⟩
      simp only [hrx, List.drop_nil]
      rfl
    | cons x rest =>
      rw [hrx, List.take_succ_cons] at noise
      obtain ⟨⟨b, hb, rfl⟩, noise_left⟩ := List.forall_mem_cons.1 noise
      rw [run_succ (huntDiscardsOtherBytes s b rest reading hp hrx hb)]
      exact ih (s := { s with env := s.env.rest, rx := rest, response := none }) later ok hp noise_left

/-- Up to ten bytes are the first bytes of a frame. -/
theorem exists_frame_take_eq {bs : List Byte} (h : bs.length ≤ 10) : ∃ F : RspFrame, F.toList.take bs.length = bs :=
  ⟨⟨(bs ++ List.replicate (10 - bs.length) 0).toArray, by simp; omega⟩, by simp⟩

theorem getElem?_of_frame_take {F : RspFrame} {bs : List Byte} (hF : F.toList.take bs.length = bs) {j : Nat}
    (hj : j < 10) (within : j < bs.length) : bs[j]? = some F[j] := by
  rw [← hF, List.getElem?_take_of_lt within]
  simp [hj]

/-- A frame taken from the start marker on holds it in `F[0]` (R77). -/
theorem start_of_frame_take {F : RspFrame} {d : List Byte} (hF : F.toList.take (0xAA :: d).length = 0xAA :: d) :
    F[0] = 0xAA :=
  (Option.some.inj (getElem?_of_frame_take hF (j := 0) (by omega) (by simp))).symm

/-- Settles O29: the noise by `run_hunt_noise`, then the ten bytes of the frame by `run_hunt_frame`. -/
theorem readFrameTakesNoiseAndTenBytes : Obligations.ReadFrameTakesNoiseAndTenBytes := by
  intro s noise d rest quiet ok hp hnoise hrx
  obtain ⟨F, hF⟩ := exists_frame_take_eq (bs := 0xAA :: d.toList) (by simp)
  have start := start_of_frame_take hF
  rw [List.take_of_length_le (by simp)] at hF
  obtain ⟨quiet_noise, quiet_frame⟩ := Environment.quietFor_add.1 quiet
  obtain ⟨driven, over_noise⟩ := run_hunt_noise quiet_noise ok hp
    (by rw [hrx, List.take_left' (by simp)]; exact noiseStream_map_byte hnoise)
  have left : s.rx.drop noise.length = F.toList.map .byte ++ rest := by
    rw [hrx, List.drop_left' (by simp), hF]
    rfl
  refine ⟨F, hF, ?_⟩
  rw [run_add over_noise, Environment.after_add]
  exact run_hunt_frame (s := { s with env := _, rx := _, response := driven }) quiet_frame ok hp start left

/-! ### A READ_FRAME over a stream that ends too early -/

/-- The bytes still to come when only the first `m` of a frame are, the next one first. -/
theorem drop_take_frame (F : RspFrame) {k m : Nat} (hk : k < m) (hm : m ≤ 10) :
    ((F.toList.take m).drop k).map RxItem.byte = .byte F[k] :: ((F.toList.take m).drop (k + 1)).map RxItem.byte := by
  rw [List.drop_eq_getElem_cons (by simp; omega)]
  simp

/-- R78, R82: in `COLLECT`, with only the first `m` bytes of `F` to be had, nine at most, `n` quiet steps store the next
`n` of them, or all there are, and wait. -/
theorem run_collect_short {F : RspFrame} {m n : Nat} {s : State} (quiet : s.env.quietFor n = true)
    (ok : s.sequencerOk = true) (hp : s.phase = .collect) (short : m ≤ 9) (count : s.count.val ≤ m)
    (agrees : AgreesBelow F s.buf s.count.val) (hrx : s.rx = ((F.toList.take m).drop s.count.val).map .byte) :
    ∃ driven buf' count', Host.Core.run Sys2Proof.core n s = .next
        { s with env := s.env.after n, rx := s.rx.drop n, response := driven, buf := buf', count := count' } ∧
      count'.val = min (s.count.val + n) m ∧ AgreesBelow F buf' count'.val := by
  induction n generalizing s with
  | zero => exact ⟨s.response, s.buf, s.count, rfl, (Nat.min_eq_left count).symm, agrees⟩
  | succ n ih =>
    obtain ⟨now, later⟩ := Environment.quietFor_succ.1 quiet
    obtain ⟨pending, -, -⟩ := (sequencerOk_collect hp).1 ok
    have reading : s.Reading := ⟨now, ok, by simp [hp]⟩
    rcases Nat.eq_or_lt_of_le count with all | more
    · have empty : s.rx = [] := by rw [hrx, all]; simp
      obtain ⟨driven, buf', count', run, counted, agrees'⟩ :=
        ih (s := { s with env := s.env.rest, response := none }) later ok hp count agrees hrx
      refine ⟨driven, buf', count', ?_, counted.trans (by simp [all]), agrees'⟩
      rw [run_succ (waitingReadStutters s reading empty), run]
      simp only [empty, List.drop_nil]
      rfl
    · obtain ⟨left, hleft⟩ : ∃ left, left = ((F.toList.take m).drop (s.count.val + 1)).map RxItem.byte := ⟨_, rfl⟩
      have next : s.rx = .byte F[s.count.val] :: left := by rw [hrx, hleft, drop_take_frame F more (by omega)]
      obtain ⟨driven, buf', count', run, counted, agrees'⟩ := ih
        (s := { s with
          env := s.env.rest, response := none, rx := left
          buf := s.buf.setIfInBounds s.count.val F[s.count.val], count := ⟨s.count.val + 1, by omega⟩ })
        later (sequencerOk_of_collect hp pending (Nat.le_add_left 1 _) (more.trans_le short)) hp more
        (agrees.store (by omega)) hleft
      refine ⟨driven, buf', count', ?_,
        counted.trans (congrArg (min · m) (Nat.succ_add_eq_add_succ s.count.val n)), agrees'⟩
      rw [run_succ (step_collect_store reading hp next (by omega)), run, next]
      rfl

/-- R77, R78, R82: in `HUNT`, with only the first `m` bytes of a frame to be had, 1 to 9, `n + 1` quiet steps begin the
frame, store its next `n` bytes, or all there are, and wait. -/
theorem run_hunt_short {F : RspFrame} {m n : Nat} {s : State} (quiet : s.env.quietFor (n + 1) = true)
    (ok : s.sequencerOk = true) (hp : s.phase = .hunt) (start : F[0] = 0xAA) (nonempty : 1 ≤ m) (short : m ≤ 9)
    (hrx : s.rx = (F.toList.take m).map .byte) :
    ∃ driven buf' count', Host.Core.run Sys2Proof.core (n + 1) s = .next
        { s with
          env := s.env.after (n + 1), rx := s.rx.drop (n + 1), response := driven
          buf := buf', count := count', phase := .collect } ∧
      count'.val = min (n + 1) m ∧ AgreesBelow F buf' count'.val := by
  obtain ⟨now, later⟩ := Environment.quietFor_succ.1 quiet
  obtain ⟨pending, -⟩ := (sequencerOk_hunt hp).1 ok
  have reading : s.Reading := ⟨now, ok, by simp [hp]⟩
  obtain ⟨left, hleft⟩ : ∃ left, left = ((F.toList.take m).drop 1).map RxItem.byte := ⟨_, rfl⟩
  have taken : s.rx = .byte 0xAA :: left := by
    rw [hrx, ← start, hleft]
    exact drop_take_frame F (k := 0) nonempty (by omega)
  have none_yet : AgreesBelow F s.buf 0 := fun j _ hj => absurd hj (Nat.not_lt_zero j)
  have first : AgreesBelow F (s.buf.setIfInBounds 0 0xAA) 1 := start ▸ none_yet.store (by omega)
  obtain ⟨driven, buf', count', run, counted, agrees⟩ := run_collect_short (F := F) (m := m)
    (s := { s with
      env := s.env.rest, response := none, rx := left
      buf := s.buf.setIfInBounds 0 0xAA, count := 1, phase := .collect })
    later (sequencerOk_of_collect rfl pending (Nat.le_refl 1) (by simp)) rfl short nonempty first hleft
  refine ⟨driven, buf', count', ?_, counted.trans (congrArg (min · m) (Nat.add_comm 1 n)), agrees⟩
  rw [run_succ (step_hunt_start reading hp taken), run, taken]
  rfl

/-- Settles O27: while noise is taken by `run_hunt_noise`, and from the start marker on by `run_hunt_short`. -/
theorem readFrameMayNeverComplete : Obligations.ReadFrameMayNeverComplete := by
  intro s noise tail quiet ok hp hrx hnoise htail n
  obtain ⟨pending, count⟩ := (sequencerOk_hunt hp).1 ok
  by_cases hunting : n ≤ noise.length ∨ tail = []
  · have taken_noise : NoiseStream (s.rx.take n) := by
      rw [hrx, ← List.map_take]
      refine noiseStream_map_byte fun b hb => hnoise b ?_
      rcases hunting with before | rfl
      · rw [List.take_append_of_le_length before] at hb
        exact List.mem_of_mem_take hb
      · simpa using List.mem_of_mem_take hb
    obtain ⟨driven, run⟩ := run_hunt_noise (quiet.quietFor n) ok hp taken_noise
    refine ⟨_, run, pending, rfl, rfl, rfl, fun _ => ⟨hp, congrArg Fin.val count, rfl⟩, fun past nonempty => ?_⟩
    exact absurd hunting (not_or.2 ⟨Nat.not_le.2 past, nonempty⟩)
  · obtain ⟨past, nonempty⟩ := not_or.1 hunting
    obtain rfl | ⟨d, rfl, short⟩ := htail
    · exact absurd rfl nonempty
    obtain ⟨m, rfl⟩ : ∃ m, n = noise.length + (m + 1) := ⟨n - noise.length - 1, by omega⟩
    obtain ⟨F, hF⟩ := exists_frame_take_eq (bs := 0xAA :: d) (by simp; omega)
    obtain ⟨quiet_noise, quiet_rest⟩ := Environment.quietFor_add.1 (quiet.quietFor (noise.length + (m + 1)))
    obtain ⟨driven, over_noise⟩ := run_hunt_noise quiet_noise ok hp
      (by rw [hrx, ← List.map_take, List.take_left' rfl]; exact noiseStream_map_byte hnoise)
    have left : s.rx.drop noise.length = (F.toList.take (0xAA :: d).length).map .byte := by
      rw [hrx, ← List.map_drop, List.drop_left' rfl, hF]
    obtain ⟨driven', buf', count', run, counted, agrees⟩ :=
      run_hunt_short (F := F) (s := { s with env := _, rx := _, response := driven }) quiet_rest ok hp
        (start_of_frame_take hF) (by simp) (by simp; omega) left
    refine ⟨_, (run_add over_noise _).trans run, pending, rfl, rfl, List.drop_drop, fun h => absurd h hunting,
      fun _ _ => ⟨rfl, ?_, fun j hj below => ?_⟩⟩
    · rw [Nat.add_sub_cancel_left]
      exact counted
    · rw [getElem?_of_frame_take hF hj (below.trans_le (counted.trans_le (Nat.min_le_right _ _))), agrees j hj below]

end Sys2Proof.Machine
end


-- Proofs, family 42_decode.md: the response checksum and its window, the two parsers, the concentration, the refusals.
section
namespace Sys2Proof.Machine

/-! ### The response checksum -/

/-- R90 in natural numbers. -/
theorem toNat_respChecksum (F : RspFrame) : (respChecksum F).toNat =
    (F[2].toNat + F[3].toNat + F[4].toNat + F[5].toNat + F[6].toNat + F[7].toNat) % 256 := by
  simp [respChecksum, Nat.add_assoc]

/-- R90 in 8 bits, with wrap-around. -/
theorem respChecksum_eq_add (F : RspFrame) : respChecksum F = F[2] + F[3] + F[4] + F[5] + F[6] + F[7] := by
  refine BitVec.eq_of_toNat_eq ?_
  simp [toNat_respChecksum]

/-- Two frames with the same six data bytes, the window `F[2..8]` of R90. -/
def SameData (F G : RspFrame) : Prop := ∀ (k : Nat) (_ : 2 ≤ k) (_ : k < 8), G[k] = F[k]

theorem sameData_set (F : RspFrame) {j : Nat} (hj : j < 10) (outside : j < 2 ∨ 8 ≤ j) (b : Byte) :
    SameData F (F.set j b) :=
  fun k low high => Vector.getElem_set_ne hj (by omega) (by omega)

section
variable {F G : RspFrame} (same : SameData F G)
include same

theorem SameData.respChecksum_eq : respChecksum G = respChecksum F := by
  simp only [respChecksum_eq_add, same 2, same 3, same 4, same 5, same 6, same 7, Nat.reduceLeDiff, Nat.reduceLT]

theorem SameData.pm25Raw_eq : pm25Raw G = pm25Raw F :=
  congrArg₂ le16 (same 2 (by omega) (by omega)) (same 3 (by omega) (by omega))

theorem SameData.pm10Raw_eq : pm10Raw G = pm10Raw F :=
  congrArg₂ le16 (same 4 (by omega) (by omega)) (same 5 (by omega) (by omega))

theorem SameData.devId_eq : devId G = devId F :=
  congrArg₂ le16 (same 6 (by omega) (by omega)) (same 7 (by omega) (by omega))

end

/-- Settles O32: the sum is `toNat_respChecksum`, and no other byte is one of the data bytes. -/
theorem responseChecksumWindow : Obligations.ResponseChecksumWindow := by
  intro F b
  have unread {j : Nat} (hj : j < 10) (outside : j < 2 ∨ 8 ≤ j) : respChecksum (F.set j b) = respChecksum F :=
    (sameData_set F hj outside b).respChecksum_eq
  exact ⟨toNat_respChecksum F, unread _ (by omega), unread _ (by omega), unread _ (by omega), unread _ (by omega)⟩

/-- Writing one data byte moves the checksum by the byte's change. -/
theorem respChecksum_set_data (F : RspFrame) {j : Nat} (low : 2 ≤ j) (high : j < 8) (b : Byte) :
    respChecksum (F.set j b) = respChecksum F + (b - F[j]) := by
  simp only [respChecksum_eq_add]
  interval_cases j <;> simp <;> ring

/-! ### Validity -/

theorem validFrame_iff (F : RspFrame) : validFrame F = true ↔ respChecksum F = F[8] ∧ F[9] = 0xAB := by
  simp [validFrame]

/-- R91 written out by the sum of the data bytes. -/
theorem validFrame_eq_decide (F : RspFrame) : validFrame F =
    decide ((F[2].toNat + F[3].toNat + F[4].toNat + F[5].toNat + F[6].toNat + F[7].toNat) % 256 = F[8].toNat
      ∧ F[9] = 0xAB) := by
  rw [Bool.eq_iff_iff, decide_eq_true_eq, validFrame_iff, ← toNat_respChecksum, BitVec.toNat_inj]

/-- Validity reads the checksum of the data bytes, the checksum byte and the trailer. -/
theorem validFrame_congr {F G : RspFrame} (checksum : respChecksum G = respChecksum F) (stored : G[8] = F[8])
    (trailer : G[9] = F[9]) : validFrame G = validFrame F := by
  simp only [validFrame, checksum, stored, trailer]

/-- R99: the checksum of the data bytes stays, so a valid frame's checksum byte has no other value. -/
theorem validFrame_set_checksum {F : RspFrame} (valid : validFrame F = true) {δ : Byte} (changed : δ ≠ 0) :
    validFrame (F.set 8 (F[8] + δ)) = false := by
  refine Bool.eq_false_iff.2 fun valid' => changed ?_
  have before : respChecksum F = F[8] := ((validFrame_iff F).1 valid).1
  have after : respChecksum (F.set 8 (F[8] + δ)) = F[8] + δ := by simpa using ((validFrame_iff _).1 valid').1
  rw [(sameData_set F _ (by omega) _).respChecksum_eq, before] at after
  exact left_eq_add.1 after

theorem validFrame_set_trailer (F : RspFrame) {t : Byte} (wrong : t ≠ 0xAB) : validFrame (F.set 9 t) = false := by
  refine Bool.eq_false_iff.2 fun valid => wrong ?_
  simpa using ((validFrame_iff _).1 valid).2

/-- Settles O34: the checksum moves by `δ` and back, and the bytes it is compared with are not written. -/
theorem cancellingChangesNotDetected : Obligations.CancellingChangesNotDetected := by
  intro F j k low ordered high δ
  refine validFrame_congr ?_ ?_ ?_
  · rw [respChecksum_set_data _ (by omega) high, respChecksum_set_data _ low (by omega),
      Vector.getElem_set_ne _ _ (by omega)]
    ring
  · rw [Vector.getElem_set_ne _ _ (by omega), Vector.getElem_set_ne _ _ (by omega)]
  · rw [Vector.getElem_set_ne _ _ (by omega), Vector.getElem_set_ne _ _ (by omega)]

/-! ### The two parsers -/

/-- R93: an accepted frame of another subtype is refused. -/
theorem exec_decodeMeasurement_otherSubtype {F : RspFrame} {s : State} (free : s.pending = none) (hF : F[1] ≠ 0xC0) :
    exec (.decodeMeasurement F) s = .refused .measurementSubtype :=
  (serve_free free).trans (if_neg hF)

theorem exec_decodeFirmware_free {s : State} (free : s.pending = none) (F : RspFrame) :
    exec (.decodeFirmware F) s =
      .next (s.answered (decodeStatus F) (.firmware F[3] F[4] F[5] (devId F) (validFrame F))) := by
  refine (serve_free free).trans ?_
  rw [answerDecode_eq, respond_accepted free]

/-- Settles O30: the answer of `exec_decodeMeasurement_free`, with fields and validity in natural numbers. -/
theorem decodeMeasurementAnswersFields : Obligations.DecodeMeasurementAnswersFields := by
  intro F s free
  refine ⟨fun subtype => ?_, exec_decodeMeasurement_otherSubtype free⟩
  rw [exec_decodeMeasurement_free free subtype, decodeStatus, validFrame_eq_decide, pm25Raw, pm10Raw, le16_eq_ofNat,
    le16_eq_ofNat]
  simp only [decide_eq_true_eq]

/-- Settles O31: the answer of `exec_decodeFirmware_free`, with the device ID and validity in natural numbers. -/
theorem decodeFirmwareAnswersFields : Obligations.DecodeFirmwareAnswersFields := by
  intro F s free
  rw [exec_decodeFirmware_free free, decodeStatus, validFrame_eq_decide, devId, le16_eq_ofNat]
  simp only [decide_eq_true_eq]

/-- A parser's answer has the fields of any frame with the same data bytes; only validity reads the others (R98). -/
theorem SameData.exec_decodeMeasurement {F G : RspFrame} (same : SameData F G) {s : State} (free : s.pending = none)
    (subtype : G[1] = 0xC0) : exec (.decodeMeasurement G) s =
      .next (s.answered (decodeStatus G) (.measurement (pm25Raw F) (pm10Raw F) (validFrame G))) := by
  rw [exec_decodeMeasurement_free free subtype, same.pm25Raw_eq, same.pm10Raw_eq]

theorem SameData.exec_decodeFirmware {F G : RspFrame} (same : SameData F G) {s : State} (free : s.pending = none) :
    exec (.decodeFirmware G) s =
      .next (s.answered (decodeStatus G) (.firmware F[3] F[4] F[5] (devId F) (validFrame G))) := by
  rw [exec_decodeFirmware_free free, same.devId_eq, same 3 (by omega) (by omega), same 4 (by omega) (by omega),
    same 5 (by omega) (by omega)]

/-- Settles O33: the changed byte is outside the data bytes, which alone give the fields and the checksum. -/
theorem checksumAndTrailerChangesDetected : Obligations.ChecksumAndTrailerChangesDetected := by
  intro F δ t
  refine ⟨fun valid changed => validFrame_set_checksum valid changed, fun wrong => validFrame_set_trailer F wrong,
    fun G hG s free => ?_⟩
  obtain ⟨same, subtype⟩ : SameData F G ∧ G[1] = F[1] := by
    rcases hG with rfl | rfl
    · exact ⟨sameData_set F _ (by omega) _, Vector.getElem_set_ne _ _ (by omega)⟩
    · exact ⟨sameData_set F _ (by omega) _, Vector.getElem_set_ne _ _ (by omega)⟩
  exact ⟨fun hF => same.exec_decodeMeasurement free (subtype.trans hF), same.exec_decodeFirmware free⟩

/-- Two frames with the same bytes from index `m` on. -/
def AgreesFrom (m : Nat) (F G : RspFrame) : Prop := ∀ (k : Nat) (_ : m ≤ k) (_ : k < 10), G[k] = F[k]

theorem agreesFrom_set (F : RspFrame) {j m : Nat} (hj : j < 10) (below : j < m) (b : Byte) :
    AgreesFrom m F (F.set j b) :=
  fun k low hk => Vector.getElem_set_ne hj hk (by omega)

section
variable {m : Nat} {F G : RspFrame} (agree : AgreesFrom m F G)
include agree

theorem AgreesFrom.sameData (hm : m ≤ 2) : SameData F G := fun k low high => agree k (by omega) (by omega)

theorem AgreesFrom.validFrame_eq (hm : m ≤ 2) : validFrame G = validFrame F :=
  validFrame_congr (agree.sameData hm).respChecksum_eq (agree 8 (by omega) (by omega)) (agree 9 (by omega) (by omega))

end

/-- R96, R97: DECODE_FIRMWARE reads the bytes from 2 on, in any state. -/
theorem AgreesFrom.exec_decodeFirmware_eq {F G : RspFrame} (agree : AgreesFrom 2 F G) (s : State) :
    exec (.decodeFirmware G) s = exec (.decodeFirmware F) s := by
  by_cases free : s.pending = none
  · rw [(agree.sameData (by omega)).exec_decodeFirmware free, exec_decodeFirmware_free free, decodeStatus,
      decodeStatus, agree.validFrame_eq (by omega)]
  · rw [busyBlockHoldsEveryRequest _ s free rfl (by simp), busyBlockHoldsEveryRequest _ s free rfl (by simp)]

/-- R97: DECODE_MEASUREMENT reads the bytes from 1 on, in any state. -/
theorem AgreesFrom.exec_decodeMeasurement_eq {F G : RspFrame} (agree : AgreesFrom 1 F G) (s : State) :
    exec (.decodeMeasurement G) s = exec (.decodeMeasurement F) s := by
  have subtype : G[1] = F[1] := agree 1 (by omega) (by omega)
  by_cases free : s.pending = none
  · by_cases hF : F[1] = 0xC0
    · rw [(agree.sameData (by omega)).exec_decodeMeasurement free (subtype.trans hF),
        exec_decodeMeasurement_free free hF, decodeStatus, decodeStatus, agree.validFrame_eq (by omega)]
    · rw [exec_decodeMeasurement_otherSubtype free hF,
        exec_decodeMeasurement_otherSubtype free (subtype.symm ▸ hF)]
  · rw [busyBlockHoldsEveryRequest _ s free rfl (by simp), busyBlockHoldsEveryRequest _ s free rfl (by simp)]

/-- Settles O35: byte 0 is below the bytes either parser reads, byte 1 below those of DECODE_FIRMWARE. -/
theorem parsersIgnoreMarkerAndFirmwareSubtype : Obligations.ParsersIgnoreMarkerAndFirmwareSubtype := by
  intro F b s
  exact ⟨(agreesFrom_set F _ (by omega) b).exec_decodeMeasurement_eq s,
    (agreesFrom_set F _ (by omega) b).exec_decodeFirmware_eq s,
    (agreesFrom_set F _ (by omega) b).exec_decodeFirmware_eq s⟩

/-! ### The concentration -/

/-- Settles O37: the decimal digits are the count divided by ten with remainder, and the count has 16 bits. -/
theorem concentrationIsExactTenths : Obligations.ConcentrationIsExactTenths := by
  intro raw
  have digits : (raw.toNat : Rat) = 10 * (raw.toNat / 10 : Nat) + (raw.toNat % 10 : Nat) := by
    exact_mod_cast (Nat.div_add_mod raw.toNat 10).symm
  have range : (raw.toNat : Rat) ≤ 65535 := by exact_mod_cast Nat.le_of_lt_succ raw.isLt
  refine ⟨?_, ?_, Nat.mod_lt _ (by omega), ?_, ?_⟩
  · rw [concentration]; ring
  · rw [concentration, concentrationDecimal, digits]; ring
  · exact div_nonneg (Nat.cast_nonneg _) (by norm_num)
  · exact div_le_div_of_nonneg_right range (by norm_num)

/-! ### Refusals -/

/-- Settles O53: of what `exec` can do, no outcome is a fault and two are refusals, each with its ground. -/
theorem refusedOnlyWhereTheSpecRefuses : Obligations.RefusedOnlyWhereTheSpecRefuses := by
  intro i s
  have ho := exec_outcome i s
  generalize exec i s = o at ho
  cases ho with
  | held | answered | hunting | arrived => exact ⟨nofun, nofun⟩
  | otherSubtype free subtype =>
    refine ⟨nofun, fun r refused => ?_⟩
    cases refused
    exact .inl ⟨_, rfl, subtype, rfl⟩
  | sleepOperand range =>
    refine ⟨nofun, fun r refused => ?_⟩
    cases refused
    exact .inr ⟨_, rfl, range, rfl⟩

end Sys2Proof.Machine
end

-- Proofs, family 60_exceptions.md: status codes, at most one response in a step, no fault from the invariant, idleness.
section
namespace Sys2Proof.Machine

/-! ### What a fetch and the block's own step can do -/

/-- Everything a fetch can do: nothing on an empty port, run the oldest request, or refuse a word that is none. -/
theorem fetch_cases (s : State) :
    (s.port = [] ∧ fetch s = .next s) ∨
    (∃ w rest i, s.port = w :: rest ∧ decodeRequest w = .ok i ∧ fetch s = exec i { s with port := rest }) ∨
    (∃ w rest why, s.port = w :: rest ∧ decodeRequest w = .error why ∧ fetch s = .refused (.undecodable why)) := by
  cases hp : s.port with
  | nil => exact .inl ⟨rfl, fetch_nil hp⟩
  | cons w rest =>
    rw [fetch_cons hp]
    cases hd : decodeRequest w with
    | ok i => exact .inr (.inl ⟨w, rest, i, rfl, hd, rfl⟩)
    | error why => exact .inr (.inr ⟨w, rest, why, rfl, hd, rfl⟩)

/-- Everything the block's own step can do: the fault of U7 in a sequencer state the spec excludes, else a fetch or a
byte step, by the phase. -/
theorem blockStep_cases (s : State) :
    (s.sequencerOk = false ∧ blockStep s = .fault .illegalSequencer) ∨
    (s.sequencerOk = true ∧ s.phase = .idle ∧ blockStep s = fetch s) ∨
    (s.sequencerOk = true ∧ s.phase = .hunt ∧ blockStep s = .next (byteStep huntByte s)) ∨
    (s.sequencerOk = true ∧ s.phase = .collect ∧ blockStep s = .next (byteStep collectByte s)) := by
  by_cases ok : s.sequencerOk = true
  · cases hp : s.phase with
    | idle => exact .inr (.inl ⟨ok, rfl, blockStep_idle hp ok⟩)
    | hunt => exact .inr (.inr (.inl ⟨ok, rfl, blockStep_hunt hp ok⟩))
    | collect => exact .inr (.inr (.inr ⟨ok, rfl, blockStep_collect hp ok⟩))
  · exact .inl ⟨Bool.eq_false_iff.2 ok, if_neg ok⟩

/-! ### At most one response in a step -/

/-- From `s` to `t` no response was driven, or one, which was delivered and ended the outstanding request (R104). -/
def State.RespondsAtMostOnce (s t : State) : Prop :=
  (t.response = none ∧ t.delivered = s.delivered) ∨
  ∃ r : Response, t.response = some r ∧ t.delivered = s.delivered ++ [r] ∧ t.pending = none

section
variable {s : State} (silent : s.response = none)
include silent

/-- An instruction that goes on is held, answered once, or a READ_FRAME or a device's frame, answered later or never. -/
theorem exec_respondsAtMostOnce {i : Instr} {t : State} (ht : exec i s = .next t) : s.RespondsAtMostOnce t := by
  have ho := exec_outcome i s
  rw [ht] at ho
  cases ho with
  | held => exact .inl ⟨silent, rfl⟩
  | answered free => exact .inr ⟨_, rfl, rfl, free⟩
  | hunting => exact .inl ⟨silent, rfl⟩
  | arrived => exact .inl ⟨silent, rfl⟩

theorem fetch_respondsAtMostOnce {t : State} (ht : fetch s = .next t) : s.RespondsAtMostOnce t := by
  rcases fetch_cases s with ⟨-, h⟩ | ⟨w, rest, i, -, -, h⟩ | ⟨w, rest, why, -, -, h⟩ <;> rw [h] at ht
  · cases ht
    exact .inl ⟨silent, rfl⟩
  · exact exec_respondsAtMostOnce (s := { s with port := rest }) silent ht
  · cases ht

theorem huntByte_respondsAtMostOnce (b : Byte) : s.RespondsAtMostOnce (huntByte b s) := by
  by_cases hb : b = 0xAA
  · subst hb
    rw [huntByte_start]
    exact .inl ⟨silent, rfl⟩
  · rw [huntByte_other hb]
    exact .inl ⟨silent, rfl⟩

/-- A byte taken in `COLLECT` is answered when it is the tenth of the frame (R78, R79). -/
theorem collectByte_respondsAtMostOnce (b : Byte) : s.RespondsAtMostOnce (collectByte b s) := by
  by_cases hc : s.count.val + 1 < 10
  · rw [collectByte_store hc]
    exact .inl ⟨silent, rfl⟩
  · rw [collectByte_complete hc]
    exact .inr ⟨_, rfl, rfl, rfl⟩

/-- A byte step responds at most once when taking a byte does; the transport's error is one response (R80). -/
theorem byteStep_respondsAtMostOnce {f : Byte → State → State}
    (hf : ∀ b rest, State.RespondsAtMostOnce { s with rx := rest } (f b { s with rx := rest })) :
    s.RespondsAtMostOnce (byteStep f s) := by
  rcases byteStep_cases f s with ⟨-, h⟩ | ⟨b, rest, -, h⟩ | ⟨rest, -, h⟩ <;> rw [h]
  · exact .inl ⟨silent, rfl⟩
  · exact hf b rest
  · exact .inr ⟨_, rfl, rfl, rfl⟩

theorem blockStep_respondsAtMostOnce {t : State} (ht : blockStep s = .next t) : s.RespondsAtMostOnce t := by
  rcases blockStep_cases s with ⟨-, h⟩ | ⟨-, -, h⟩ | ⟨-, -, h⟩ | ⟨-, -, h⟩ <;> rw [h] at ht
  · cases ht
  · exact fetch_respondsAtMostOnce silent ht
  · cases ht
    exact byteStep_respondsAtMostOnce silent fun b rest =>
      huntByte_respondsAtMostOnce (s := { s with rx := rest }) silent b
  · cases ht
    exact byteStep_respondsAtMostOnce silent fun b rest =>
      collectByte_respondsAtMostOnce (s := { s with rx := rest }) silent b

end

/-- Settles O52: a step begins with no response driven; only the block's own step drives one, and none of the
environment's moves adds to those delivered. -/
theorem atMostOneResponsePerStep : Obligations.AtMostOneResponsePerStep := by
  intro s t ht
  rcases step_cases s with ⟨-, h⟩ | ⟨-, offered, h⟩ | ⟨-, rx', h⟩ | ⟨-, h⟩ | ⟨bytes, why, -, h⟩ <;> rw [h] at ht
  · exact blockStep_respondsAtMostOnce (s := { s with env := s.env.rest, response := none }) rfl ht
  · cases ht
    exact .inl ⟨rfl, rfl⟩
  · cases ht
    exact .inl ⟨rfl, rfl⟩
  · cases ht
    exact .inl ⟨rfl, rfl⟩
  · cases ht

/-! ### No fault from a state that meets the invariant -/

theorem fetch_ne_fault (s : State) (f : Fault) : fetch s ≠ .fault f := by
  rcases fetch_cases s with ⟨-, h⟩ | ⟨w, rest, i, -, -, h⟩ | ⟨w, rest, why, -, -, h⟩ <;> rw [h]
  · nofun
  · obtain ⟨noFault, -⟩ := refusedOnlyWhereTheSpecRefuses i { s with port := rest }
    exact noFault f
  · nofun

/-- U7: the one fault is that of a sequencer state the spec excludes. -/
theorem blockStep_ne_fault {s : State} (ok : s.sequencerOk = true) (f : Fault) : blockStep s ≠ .fault f := by
  rcases blockStep_cases s with ⟨excluded, -⟩ | ⟨-, -, h⟩ | ⟨-, -, h⟩ | ⟨-, -, h⟩
  · exact absurd ok (Bool.eq_false_iff.1 excluded)
  · rw [h]; exact fetch_ne_fault s f
  · rw [h]; nofun
  · rw [h]; nofun

/-- Settles O59: the environment's moves do not fault, and the block's own step does so in no sequencer state the
invariant allows. -/
theorem invariantStatesNeverFault : Obligations.InvariantStatesNeverFault := by
  intro s inv f
  rcases step_cases s with ⟨-, h⟩ | ⟨-, offered, h⟩ | ⟨-, rx', h⟩ | ⟨-, h⟩ | ⟨bytes, why, -, h⟩ <;> rw [h]
  · exact blockStep_ne_fault (s := { s with env := s.env.rest, response := none }) inv.sequencer f
  · nofun
  · nofun
  · nofun
  · nofun

/-! ### Idleness and the codes -/

/-- Settles O51: the quiet step of an idle block is a fetch, and the port is empty. -/
theorem noRequestNoStep : Obligations.NoRequestNoStep := by
  intro s quiet hp ok port
  rw [step_of_quiet quiet, blockStep_idle (s := { s with env := s.env.rest, response := none }) hp ok]
  exact fetch_nil port

/-- Settles O60: in `HUNT` and in `COLLECT` the invariant has a READ_FRAME pending. -/
theorem nothingPendingMeansIdle : Obligations.NothingPendingMeansIdle := by
  intro s inv free
  cases hp : s.phase with
  | idle =>
    obtain ⟨-, count⟩ := (sequencerOk_idle hp).1 inv.sequencer
    exact ⟨rfl, congrArg Fin.val count⟩
  | hunt =>
    obtain ⟨pending, -⟩ := (sequencerOk_hunt hp).1 inv.sequencer
    exact absurd (pending.symm.trans free) nofun
  | collect =>
    obtain ⟨pending, -⟩ := (sequencerOk_collect hp).1 inv.sequencer
    exact absurd (pending.symm.trans free) nofun

/-- Settles O54: the two tables of codes as R100 and R20 give them. -/
theorem statusAndPhaseCodes : Obligations.StatusAndPhaseCodes := ⟨rfl, rfl, rfl, rfl, rfl, rfl, rfl⟩

end Sys2Proof.Machine
end

-- Proofs, family 70_reset_and_hazards.md: the step in which reset is asserted.
section
namespace Sys2Proof.Machine

/-- R120: a step in which reset is asserted is the block's reset and nothing else, whatever the block was doing. -/
theorem step_of_reset {s : State} (h : s.env.next = .reset) :
    step s = .next (blockReset { s with env := s.env.rest, response := none }) := by
  rw [step_eq, h, moveStep_reset]

/-- Settles O40: the step is the block's reset, and `buf` is the value drawn for it. -/
theorem resetDropsRequestAndKeepsStream : Obligations.ResetDropsRequestAndKeepsStream :=
  fun s asserted => ⟨Config.bufAfterReset s.draws, step_of_reset asserted⟩

end Sys2Proof.Machine
end

-- Proofs, family other: the signals of 10_state.md section 4.
section
namespace Sys2Proof.Machine

/-! ### A byte of a bus -/

/-- The first byte packed stands in the low bits: those after it are shifted past bit 7. -/
theorem extractLsb'_packBytes_cons_zero {w : Nat} (b : Byte) (rest : List Byte) (h : 8 ≤ w) :
    (packBytes w (b :: rest)).extractLsb' 0 8 = b := by
  ext i hi
  have inside : i < w := by omega
  simp [packBytes, inside, hi, BitVec.getLsbD_eq_getElem]

/-- The first byte packed ends at bit 7, so a byte above it is one of those packed after it, eight bits lower. -/
theorem extractLsb'_packBytes_cons_succ {w : Nat} (b : Byte) (rest : List Byte) {k : Nat} (h : 8 * (k + 1) + 8 ≤ w) :
    (packBytes w (b :: rest)).extractLsb' (8 * (k + 1)) 8 = (packBytes w rest).extractLsb' (8 * k) 8 := by
  ext i hi
  have inside : 8 * (k + 1) + i < w := by omega
  have above : b.getLsbD (8 * (k + 1) + i) = false := BitVec.getLsbD_of_ge b _ (by omega)
  have lower : 8 * (k + 1) + i - 8 = 8 * k + i := by omega
  have notFirst : ¬ 8 * (k + 1) + i < 8 := by omega
  have present : 8 * k + i < w := by omega
  simp [packBytes, inside, above, lower, notFirst, BitVec.getLsbD_eq_getElem present]

/-- Byte `k` on a bus wide enough for it stands at bits `[8k+7:8k]`. -/
theorem extractLsb'_packBytes {w : Nat} {bs : List Byte} {k : Nat} (hk : k < bs.length) (h : 8 * k + 8 ≤ w) :
    (packBytes w bs).extractLsb' (8 * k) 8 = bs[k] := by
  induction bs generalizing k with
  | nil => exact absurd hk (Nat.not_lt_zero k)
  | cons b rest ih =>
    cases k with
    | zero => exact extractLsb'_packBytes_cons_zero b rest (by omega)
    | succ k =>
      rw [extractLsb'_packBytes_cons_succ b rest h]
      exact ih (Nat.lt_of_succ_lt_succ hk) (by omega)

/-! ### The signals -/

section
variable {s : State}

theorem reqReady_iff : s.reqReady = true ↔ s.pending = none := Option.isNone_iff_eq_none

theorem rxReady_iff : s.rxReady = true ↔ s.phase = .hunt ∨ s.phase = .collect := by
  unfold State.rxReady
  cases s.phase <;> decide

/-- A state without a response has the result `.none`; any other result is that of the response driven. -/
theorem respResult_eq_iff {r : Result} (hr : r ≠ .none) : s.respResult = r ↔ ∃ st, s.response = some ⟨st, r⟩ := by
  unfold State.respResult
  cases s.response with
  | none => simp [hr.symm]
  | some q => cases q; simp

/-- `resp_cmd_frame` has a value while the response driven has a command frame, and packs that frame. -/
theorem respCmdFrame_eq_some_iff {bus : BitVec 152} : s.respCmdFrame = some bus ↔
    ∃ (st : Status) (F : CmdFrame), s.response = some ⟨st, .cmdFrame F⟩ ∧ packBytes 152 F.toList = bus := by
  have ofResult : s.respCmdFrame = some bus ↔ ∃ F, s.respResult = .cmdFrame F ∧ packBytes 152 F.toList = bus := by
    unfold State.respCmdFrame
    cases s.respResult <;> simp
  rw [ofResult, exists_comm]
  exact exists_congr fun F => by rw [respResult_eq_iff (by nofun), exists_and_right]

/-- `resp_rsp_frame` has a value while the response driven has a response frame, and packs that frame. -/
theorem respRspFrame_eq_some_iff {bus : BitVec 80} : s.respRspFrame = some bus ↔
    ∃ (st : Status) (F : RspFrame), s.response = some ⟨st, .rspFrame F⟩ ∧ packBytes 80 F.toList = bus := by
  have ofResult : s.respRspFrame = some bus ↔ ∃ F, s.respResult = .rspFrame F ∧ packBytes 80 F.toList = bus := by
    unfold State.respRspFrame
    cases s.respResult <;> simp
  rw [ofResult, exists_comm]
  exact exists_congr fun F => by rw [respResult_eq_iff (by nofun), exists_and_right]

theorem respCmdFrame_isSome_iff :
    s.respCmdFrame.isSome = true ↔ ∃ (st : Status) (F : CmdFrame), s.response = some ⟨st, .cmdFrame F⟩ := by
  rw [Option.isSome_iff_exists]
  constructor
  · rintro ⟨bus, driven⟩
    obtain ⟨st, F, h, -⟩ := respCmdFrame_eq_some_iff.1 driven
    exact ⟨st, F, h⟩
  · rintro ⟨st, F, h⟩
    exact ⟨_, respCmdFrame_eq_some_iff.2 ⟨st, F, h, rfl⟩⟩

theorem respRspFrame_isSome_iff :
    s.respRspFrame.isSome = true ↔ ∃ (st : Status) (F : RspFrame), s.response = some ⟨st, .rspFrame F⟩ := by
  rw [Option.isSome_iff_exists]
  constructor
  · rintro ⟨bus, driven⟩
    obtain ⟨st, F, h, -⟩ := respRspFrame_eq_some_iff.1 driven
    exact ⟨st, F, h⟩
  · rintro ⟨st, F, h⟩
    exact ⟨_, respRspFrame_eq_some_iff.2 ⟨st, F, h, rfl⟩⟩

end

/-- A frame packed on a bus of its own width has its byte `k` at bits `[8k+7:8k]`. -/
theorem extractLsb'_packBytes_frame {n : Nat} (F : Vector Byte n) {k : Nat} (hk : k < n) :
    (packBytes (8 * n) F.toList).extractLsb' (8 * k) 8 = F[k] := by
  rw [extractLsb'_packBytes (by simpa using hk) (by omega), Vector.getElem_toList]

/-- Settles O55: each signal by the lemma about it; a bus packs the frame of the response driven. -/
theorem portSignals : Obligations.PortSignals := by
  intro s
  refine ⟨reqReady_iff, rxReady_iff, respCmdFrame_isSome_iff, respRspFrame_isSome_iff, ?_, ?_⟩
  · intro st F bus h driven k hk
    obtain ⟨_, _, h', rfl⟩ := respCmdFrame_eq_some_iff.1 driven
    cases h.symm.trans h'
    exact extractLsb'_packBytes_frame F hk
  · intro st F bus h driven k hk
    obtain ⟨_, _, h', rfl⟩ := respRspFrame_eq_some_iff.1 driven
    cases h.symm.trans h'
    exact extractLsb'_packBytes_frame F hk

end Sys2Proof.Machine
end
